-- ==== Sys2Proof/Word.lean ====
section
/-! DEFINITION. The words of the command port: 32-bit command and response words, and bytes. -/

namespace Sys2Proof

/-- A command word or a response word of the command port (30 R300, 40 R400). -/
abbrev Word := BitVec 32

/-- One byte of a message buffer (20 R200). -/
abbrev Byte := BitVec 8

end Sys2Proof
end

