-- ==== Sys2Proof/Machine/Params.lean ====
section
/-! DEFINITION. The values the source fixes (00 R7) and the sizes the spec derives or decides (00 R9). -/

namespace Sys2Proof.Machine

/-- MAX_RX_MSG_LEN, bytes (00 R7). -/
abbrev maxRxMsgLen : Nat := 36

/-- MAX_TX_MSG_LEN, bytes (00 R7). -/
abbrev maxTxMsgLen : Nat := 32

/-- CODEWORD_LEN, bits (00 R7). -/
abbrev codewordLen : Nat := 11

/-- BITSYNC_PATTERN (00 R7). -/
abbrev bitsyncPattern : BitVec 16 := 0xAAAA#16

/-- WORDSYNC_PATTERN (00 R7). -/
abbrev wordsyncPattern : BitVec 16 := 0x567B#16

/-- The inverted form of WORDSYNC_PATTERN (00 R7), its 16-bit complement (00 R10). -/
abbrev wordsyncInverted : BitVec 16 := 0xA984#16

/-- EOP_PATTERN (00 R7), as the 16-bit value DET_DATA is compared with (43 R717 (c)). -/
abbrev eopPattern : BitVec 16 := 0x0733#16

/-- EOP_PATTERN[10:0], the EOP as a codeword (46 R1004). -/
abbrev eopCodeword : BitVec 11 := 0x733#11

/-- The CRC polynomial, top bit first (00 R7). -/
abbrev crcPoly : BitVec 16 := 0x1021#16

/-- The CRC seed (00 R7). -/
abbrev crcSeed : BitVec 16 := 0xFFFF#16

/-- Phase fraction bits (00 R7). -/
abbrev phaseFracBits : Nat := 10

/-- FIND_EOP_AFTER = MAX_TX_MSG_LEN + 2 (00 R9). -/
abbrev findEopAfter : Nat := 34

/-- TX_BUF_WORDS (00 R9). -/
abbrev txBufWords : Nat := 29

/-- HEADER_LEN in 16-bit words (00 R7). -/
abbrev headerWords : Nat := 3

/-- TRAILER_LEN in 16-bit words (00 R7). -/
abbrev trailerWords : Nat := 2

end Sys2Proof.Machine
end

