-- ==== Sys2Proof/Config.lean ====
section
/-! DEFINITION. The configuration: one field for each parameter of 00 R8. The source gives no value for any of them
(92 D45), so the machine takes the configuration as data; TC1 is the test configuration of 95 section 1. -/

namespace Sys2Proof

/-- The configuration parameters of 00 R8, fixed when the block is built (10 R113, R114).
SINE_LEN and GAIN_LEN are the lengths of their tables (log entry 5). -/
structure Config where
  /-- SINE_TABLE, L signed 16-bit entries. -/
  sineTable : List (BitVec 16)
  /-- ETA0, phase units per sample. -/
  eta0 : Nat
  /-- CYCLES_PER_BIT (N). -/
  cyclesPerBit : Nat
  /-- CORR_WINDOW (W). -/
  corrWindow : Nat
  /-- AGC_ENABLE. -/
  agcEnable : Bool
  /-- GAIN_TABLE, GAIN_LEN unsigned 16-bit gains. -/
  gainTable : List (BitVec 16)
  /-- GAIN_SHIFT. -/
  gainShift : Nat
  /-- AGC_INIT_INDEX. -/
  agcInitIndex : Nat
  /-- AGC_OVF_DEC. -/
  agcOvfDec : Nat
  /-- AGC_THRESHOLD. -/
  agcThreshold : Nat
  /-- KP, signed 16-bit. -/
  kp : BitVec 16
  /-- KP_SHIFT. -/
  kpShift : Nat
  /-- KI, signed 16-bit. -/
  ki : BitVec 16
  /-- KI_SHIFT. -/
  kiShift : Nat
  /-- INT_LIMIT. -/
  intLimit : Nat
  /-- THRESHOLD_V. -/
  thresholdV : Nat
  /-- THRESHOLD_T, samples. -/
  thresholdT : Nat
  /-- BIT_HOLD_PHASE. -/
  bitHoldPhase : Nat
  /-- BIT_PERIOD_SAMPLES. -/
  bitPeriodSamples : Nat
  /-- BIT_TOL, samples. -/
  bitTol : Nat
  /-- FIND_WORDSYNC_TIMEOUT, bit-times. -/
  findWordsyncTimeout : Nat
  /-- FIND_EOP_TIMEOUT, codeword-times (90 C5). -/
  findEopTimeout : Nat
  /-- PRECODE_TABLE (45 R900). -/
  precodeTable : Vector (BitVec 11) 256
  /-- TX_HEADER (46 R1003). -/
  txHeader : Vector (BitVec 16) 3
  /-- TX_TRAILER (46 R1004). -/
  txTrailer : Vector (BitVec 16) 2
deriving DecidableEq, Repr

namespace Config

/-- SINE_LEN (L). -/
def sineLen (c : Config) : Nat := c.sineTable.length

/-- Q = L/4, "quarter_table_length" (00 R9). -/
def quarterLen (c : Config) : Nat := c.sineLen / 4

/-- M = L·2^10, the phase modulus (00 R9). -/
def phaseMod (c : Config) : Nat := c.sineLen * 2 ^ Machine.phaseFracBits

/-- GAIN_LEN. -/
def gainLen (c : Config) : Nat := c.gainTable.length

/-- SINE_TABLE[i], a signed value. Every index the rules form is in [0, L) (log entry 4). -/
def sine (c : Config) (i : Nat) : Int := (c.sineTable.getD i 0).toInt

/-- GAIN_TABLE[i], an unsigned value. Every index the rules form is in [0, GAIN_LEN) (log entry 4). -/
def gain (c : Config) (i : Nat) : BitVec 16 := c.gainTable.getD i 0

/-- PRECODE_TABLE[b] (45 R901). -/
def precode (c : Config) (b : Byte) : BitVec 11 := c.precodeTable[b.toNat]'b.isLt

/-- PRECODE_TC1[v] = (v << 3) | (parity(v) << 2) | 0b010 (45 R904). -/
def precodeTc1 (v : Byte) : BitVec 11 :=
  v ++ BitVec.ofBool
    (v[0] ^^ v[1] ^^ v[2] ^^ v[3] ^^ v[4] ^^ v[5] ^^ v[6] ^^ v[7]) ++ 0b10#2

/-- TC1, the spec's own test configuration (95 section 1); not the legacy configuration (92 D45). -/
def tc1 : Config where
  sineTable := [0, 6270, 11585, 15137, 16384, 15137, 11585, 6270,
    0, -6270, -11585, -15137, -16384, -15137, -11585, -6270]
  eta0 := 4096
  cyclesPerBit := 4
  corrWindow := 4
  agcEnable := true
  gainTable := [64, 76, 91, 108, 128, 152, 181, 215, 256, 304, 362, 431, 512, 609, 724, 861, 1024]
  gainShift := 8
  agcInitIndex := 8
  agcOvfDec := 1
  agcThreshold := 2 ^ 27
  kp := 1
  kpShift := 19
  ki := 1
  kiShift := 23
  intLimit := 256
  thresholdV := 2 ^ 26
  thresholdT := 2
  bitHoldPhase := 9
  bitPeriodSamples := 16
  bitTol := 2
  findWordsyncTimeout := 64
  findEopTimeout := 40
  precodeTable := Vector.ofFn fun v => precodeTc1 (BitVec.ofFin v)
  txHeader := #v[0xAAAA, 0xAAAA, 0x567B]
  txTrailer := #v[0xE67C, 0xCC00]

end Config

end Sys2Proof
end

