-- ==== Sys2Proof/Syntax.lean ====
section
/-! DEFINITION. The commands of the host port: one constructor for each row of the opcode map (30 R303). -/

namespace Sys2Proof

/-- A command. Operands have the widths of their fields (30 R301), so every term is encodable. -/
inductive Instr where
  /-- NOP (40 R404). -/
  | nop
  /-- SAMPLE x, seed (40 R410). -/
  | sample (seed : BitVec 11) (x : BitVec 16)
  /-- RX_RESET (43 R721). -/
  | rxReset
  /-- RX_VALIDATE (44 R801). -/
  | rxValidate
  /-- RX_ACK (44 R802). -/
  | rxAck
  /-- TXBUF_WR idx, byte (46 R1010). -/
  | txbufWr (idx : BitVec 8) (byte : BitVec 8)
  /-- TX_ENCODE len (46 R1011). -/
  | txEncode (len : BitVec 8)
  /-- TX_NEXT_BIT (46 R1012). -/
  | txNextBit
  /-- TX_ACK_BIT (46 R1013). -/
  | txAckBit
  /-- TX_SET_RX (46 R1014). -/
  | txSetRx
  /-- CRC_INIT (47 R1104). -/
  | crcInit
  /-- CRC_BYTE byte (47 R1105). -/
  | crcByte (byte : BitVec 8)
  /-- READ addr (40 R405). -/
  | read (addr : BitVec 16)
deriving DecidableEq, Repr

end Sys2Proof
end

