-- ==== Sys2Proof/WellFormed.lean ====
section
/-! DEFINITION. Well-formedness of a command (30 R307) and of a configuration (00 R8, 45 R902, 46 R1003 and R1004),
and the configuration the block was built with. -/

namespace Sys2Proof

/-- The operand ranges of 30 R307. They are the operand types of `Instr`, so every term is well-formed; the word-level
check on reserved fields (30 R304) is in `decode`. -/
def Instr.wellFormed : Instr → Bool
  | .nop => true
  | .sample _ _ => true
  | .rxReset => true
  | .rxValidate => true
  | .rxAck => true
  | .txbufWr _ _ => true
  | .txEncode _ => true
  | .txNextBit => true
  | .txAckBit => true
  | .txSetRx => true
  | .crcInit => true
  | .crcByte _ => true
  | .read _ => true

namespace Config

/-- The oscillator's ranges: SINE_LEN, ETA0, CYCLES_PER_BIT and CORR_WINDOW (00 R8). -/
abbrev OscillatorOk (c : Config) : Prop :=
  c.sineLen % 4 = 0 ∧ 4 ≤ c.sineLen ∧ c.sineLen ≤ 2 ^ 22 ∧ c.eta0 < c.phaseMod ∧
  1 ≤ c.cyclesPerBit ∧ c.cyclesPerBit ≤ 255 ∧ 1 ≤ c.corrWindow ∧ c.corrWindow ≤ 255

/-- The AGC's ranges: GAIN_TABLE, GAIN_LEN, GAIN_SHIFT and the AGC_ parameters (00 R8). -/
abbrev AgcOk (c : Config) : Prop :=
  c.gainTable.Pairwise (fun a b => a.toNat ≤ b.toNat) ∧ 1 ≤ c.gainLen ∧ c.gainLen ≤ 256 ∧
  c.gainShift ≤ 31 ∧ c.agcInitIndex < c.gainLen ∧ 1 ≤ c.agcOvfDec ∧ c.agcOvfDec ≤ 255 ∧
  c.agcThreshold < 2 ^ 47

/-- The loop filter's ranges: KP_SHIFT, KI_SHIFT and INT_LIMIT (00 R8). -/
abbrev LoopOk (c : Config) : Prop :=
  c.kpShift ≤ 63 ∧ c.kiShift ≤ 63 ∧ c.intLimit ≤ 2 ^ 31 - 1

/-- The slicer's ranges: THRESHOLD_V and THRESHOLD_T (00 R8). -/
abbrev SlicerOk (c : Config) : Prop :=
  c.thresholdV < 2 ^ 47 ∧ c.thresholdT ≤ 65534

/-- The receiver's ranges: BIT_HOLD_PHASE < N·(L/4) − 1, the transition window and the timeouts (00 R8). -/
abbrev ReceiverOk (c : Config) : Prop :=
  c.bitHoldPhase + 1 < c.cyclesPerBit * c.quarterLen ∧ c.bitPeriodSamples ≤ 65535 ∧
  c.bitTol ≤ 65535 ∧ c.findWordsyncTimeout ≤ 65534 ∧ c.findEopTimeout ≤ 65534

/-- The type ranges of 00 R8, on which the rules are total (93 I5). -/
abbrev RangesOk (c : Config) : Prop :=
  c.OscillatorOk ∧ c.AgcOk ∧ c.LoopOk ∧ c.SlicerOk ∧ c.ReceiverOk

/-- 45 R902: the byte stands in the codeword's top bits, and no codeword is the EOP. -/
abbrev PrecodeOk (c : Config) : Prop :=
  ∀ v : Fin 256, (c.precodeTable[v]).extractLsb' 3 8 = BitVec.ofFin v ∧
    c.precodeTable[v] ≠ Machine.eopCodeword

/-- 46 R1003: the header ends with the word sync. -/
abbrev HeaderOk (c : Config) : Prop :=
  c.txHeader[2] = Machine.wordsyncPattern

/-- The first 11 bits of the trailer (46 R1004). -/
def trailerFirst (c : Config) : BitVec 11 := c.txTrailer[0].extractLsb' 5 11

/-- The second 11 bits of the trailer (46 R1004). -/
def trailerSecond (c : Config) : BitVec 11 := (c.txTrailer[0] ++ c.txTrailer[1]).extractLsb' 10 11

/-- 46 R1004: the EOP codeword stands first, or second after one artifact. -/
abbrev TrailerOk (c : Config) : Prop :=
  c.trailerFirst = Machine.eopCodeword ∨
  (c.trailerSecond = Machine.eopCodeword ∧ c.trailerFirst ≠ Machine.eopCodeword)

/-- A well-formed configuration (93 I5 names its four parts). -/
abbrev WellFormed (c : Config) : Prop :=
  c.RangesOk ∧ c.PrecodeOk ∧ c.HeaderOk ∧ c.TrailerOk

end Config

/-- A configuration the block can be built with: a model may reject an ill-formed one before reset (93 I5). -/
structure BuiltConfig where
  /-- The parameters. -/
  cfg : Config := Config.tc1
  /-- They satisfy every constraint the spec states. -/
  wellFormed : cfg.WellFormed := by decide +kernel
deriving Inhabited

/-- DESIGN CHOICE (log entry 1): the configuration the block was built with. It has no body, so nothing is known of
it but that it is well-formed, and what is proved of it holds of every well-formed configuration. -/
opaque Config.build : BuiltConfig

end Sys2Proof
end

