-- ==== Sys2Proof/Decode.lean ====
section
/-! DEFINITION. Command decoding (30 R300 to R306), total on every 32-bit word, and the encoder (30 R301, R307). -/

namespace Sys2Proof

/-- The rows of the opcode map (30 R303). -/
inductive Opcode where
  | nop | sample | rxReset | rxValidate | rxAck | txbufWr | txEncode
  | txNextBit | txAckBit | txSetRx | crcInit | crcByte | read
deriving DecidableEq, Repr

/-- The row of an OP value; none for the reserved values 0x0D to 0x1F (30 R303). -/
def opcodeOfOp : Nat → Option Opcode
  | 0x00 => some .nop
  | 0x01 => some .sample
  | 0x02 => some .rxReset
  | 0x03 => some .rxValidate
  | 0x04 => some .rxAck
  | 0x05 => some .txbufWr
  | 0x06 => some .txEncode
  | 0x07 => some .txNextBit
  | 0x08 => some .txAckBit
  | 0x09 => some .txSetRx
  | 0x0A => some .crcInit
  | 0x0B => some .crcByte
  | 0x0C => some .read
  | _ => none

/-- The match column of 30 R303. -/
def matchOf : Opcode → Word
  | .nop => 0x00000000
  | .sample => 0x08000000
  | .rxReset => 0x10000000
  | .rxValidate => 0x18000000
  | .rxAck => 0x20000000
  | .txbufWr => 0x28000000
  | .txEncode => 0x30000000
  | .txNextBit => 0x38000000
  | .txAckBit => 0x40000000
  | .txSetRx => 0x48000000
  | .crcInit => 0x50000000
  | .crcByte => 0x58000000
  | .read => 0x60000000

/-- The mask column of 30 R303. -/
def maskOf : Opcode → Word
  | .nop => 0xFFFFFFFF
  | .sample => 0xF8000000
  | .rxReset => 0xFFFFFFFF
  | .rxValidate => 0xFFFFFFFF
  | .rxAck => 0xFFFFFFFF
  | .txbufWr => 0xFF00FF00
  | .txEncode => 0xFF00FFFF
  | .txNextBit => 0xFFFFFFFF
  | .txAckBit => 0xFFFFFFFF
  | .txSetRx => 0xFFFFFFFF
  | .crcInit => 0xFFFFFFFF
  | .crcByte => 0xFFFFFF00
  | .read => 0xFFFF0000

/-- The OP field, bits 31:27 (30 R300). -/
def opField (w : Word) : BitVec 5 := w.extractLsb' 27 5

/-- The SEED field, bits 26:16 (30 R301). -/
def seedField (w : Word) : BitVec 11 := w.extractLsb' 16 11

/-- The X field, bits 15:0 (30 R301). -/
def xField (w : Word) : BitVec 16 := w.extractLsb' 0 16

/-- The IDX field, bits 23:16 (30 R301). -/
def idxField (w : Word) : BitVec 8 := w.extractLsb' 16 8

/-- The LEN field, bits 23:16 (30 R301). -/
def lenField (w : Word) : BitVec 8 := w.extractLsb' 16 8

/-- The BYTE field, bits 7:0 (30 R301). -/
def byteField (w : Word) : BitVec 8 := w.extractLsb' 0 8

/-- The ADDR field, bits 15:0 (30 R301). -/
def addrField (w : Word) : BitVec 16 := w.extractLsb' 0 16

/-- The command of a row whose reserved fields are zero, its operands taken from the word (30 R302). -/
def instrOf (k : Opcode) (w : Word) : Instr :=
  match k with
  | .nop => .nop
  | .sample => .sample (seedField w) (xField w)
  | .rxReset => .rxReset
  | .rxValidate => .rxValidate
  | .rxAck => .rxAck
  | .txbufWr => .txbufWr (idxField w) (byteField w)
  | .txEncode => .txEncode (lenField w)
  | .txNextBit => .txNextBit
  | .txAckBit => .txAckBit
  | .txSetRx => .txSetRx
  | .crcInit => .crcInit
  | .crcByte => .crcByte (byteField w)
  | .read => .read (addrField w)

/-- Why a word is no command (30 R305). Both cases are rejected with ERR_CMD. -/
inductive DecodeError where
  /-- OP is 0x0D to 0x1F. -/
  | reservedOpcode
  /-- OP is 0x00 to 0x0C and a reserved field is not zero. -/
  | reservedField
deriving DecidableEq, Repr

/-- Decoding of a command word (30 R304). -/
def decode (w : Word) : Except DecodeError Instr :=
  match opcodeOfOp (opField w).toNat with
  | none => .error .reservedOpcode
  | some k => if w &&& maskOf k = matchOf k then .ok (instrOf k w) else .error .reservedField

/-- The row of a command. -/
def opcodeOf : Instr → Opcode
  | .nop => .nop
  | .sample _ _ => .sample
  | .rxReset => .rxReset
  | .rxValidate => .rxValidate
  | .rxAck => .rxAck
  | .txbufWr _ _ => .txbufWr
  | .txEncode _ => .txEncode
  | .txNextBit => .txNextBit
  | .txAckBit => .txAckBit
  | .txSetRx => .txSetRx
  | .crcInit => .crcInit
  | .crcByte _ => .crcByte
  | .read _ => .read

/-- The command word of a command: the fields of its format (30 R301), high bits first, reserved fields zero. -/
def encode : Instr → Word
  | .nop => 0x00#5 ++ 0#27
  | .sample seed x => 0x01#5 ++ seed ++ x
  | .rxReset => 0x02#5 ++ 0#27
  | .rxValidate => 0x03#5 ++ 0#27
  | .rxAck => 0x04#5 ++ 0#27
  | .txbufWr idx byte => 0x05#5 ++ 0#3 ++ idx ++ 0#8 ++ byte
  | .txEncode len => 0x06#5 ++ 0#3 ++ len ++ 0#16
  | .txNextBit => 0x07#5 ++ 0#27
  | .txAckBit => 0x08#5 ++ 0#27
  | .txSetRx => 0x09#5 ++ 0#27
  | .crcInit => 0x0A#5 ++ 0#27
  | .crcByte byte => 0x0B#5 ++ 0#19 ++ byte
  | .read addr => 0x0C#5 ++ 0#11 ++ addr

/-- The word the host's number w stands for: a command is one 32-bit word (30 R300), so only bits below nbits
count, and bits from 32 on belong to no command. -/
def tableWord (nbits w : Nat) : Word := BitVec.ofNat 32 (w % 2 ^ nbits)

/-- What the decoder reads from the command whose bits are w. -/
def decodeTableWord (nbits w : Nat) : Option Instr :=
  match decode (tableWord nbits w) with
  | .ok i => some i
  | .error _ => none

end Sys2Proof
end

