-- ==== Sys2Proof/Machine/Operands.lean ====
section
/-! DEFINITION. The arithmetic primitives of 00 R11, the operand assembly of 30 R302, and the bit-field helpers of
10, 20 and 43. -/

namespace Sys2Proof.Machine

/-- `a >> s` on a signed value: ⌊a / 2^s⌋, rounding toward −∞ (00 R11). -/
def asr (a : Int) (s : Nat) : Int := a / 2 ^ s

/-- clamp(v, lo, hi) (00 R11). -/
def clamp (v lo hi : Int) : Int := if v < lo then lo else if hi < v then hi else v

/-- fits16(v) (00 R11). -/
abbrev Fits16 (v : Int) : Prop := -32768 ≤ v ∧ v ≤ 32767

/-- sat16(v) (00 R11). -/
def sat16 (v : Int) : Int := clamp v (-32768) 32767

/-- X = sext_16(cmd[15:0]) (30 R302). -/
def sampleOperand (x : BitVec 16) : Int := x.toInt

/-- SEED = zext_11(cmd[26:16]) as the 16-bit value HOLD_OFF takes (30 R302, 43 R717 (c)). -/
def seedOperand (seed : BitVec 11) : BitVec 16 := seed.setWidth 16

/-- IDX, LEN and ADDR as unsigned numbers (30 R302). -/
def unsignedOperand {w : Nat} (v : BitVec w) : Nat := v.toNat

/-- ((d << 1) | b) mod 2^16, the receiver's shift (20 R205). -/
def shiftIn (d : BitVec 16) (b : Bool) : BitVec 16 := d <<< 1 ||| (BitVec.ofBool b).setWidth 16

/-- DET_DATA[10:3], the byte of a codeword (43 R717 (d)). -/
def codewordByte (d : BitVec 16) : Byte := d.extractLsb' 3 8

/-- DET_DATA[10:0], the codeword (43 R717 (d)). -/
def codewordBits (d : BitVec 16) : BitVec 11 := d.extractLsb' 0 11

/-- zext to 32 bits (20 R202). -/
def zext {w : Nat} (v : BitVec w) : Word := v.setWidth 32

/-- sext to 32 bits (20 R202). -/
def sext {w : Nat} (v : BitVec w) : Word := v.signExtend 32

/-- Bits 31:0 of a wide register (20 R202, R207). -/
def lowHalf {w : Nat} (v : BitVec w) : Word := v.extractLsb' 0 32

/-- Bits 63:32 of a 64-bit register (20 R202). -/
def highHalf64 (v : BitVec 64) : Word := v.extractLsb' 32 32

/-- Bits 47:32 of a 48-bit register, sign-extended to 32 (20 R202). -/
def highHalf48 (v : BitVec 48) : Word := (v.extractLsb' 32 16).signExtend 32

/-- min(v + 1, 65535), the saturating 16-bit counters (43 R710, 46 R1012). -/
def satInc16 (v : BitVec 16) : BitVec 16 := BitVec.ofNat 16 (min (v.toNat + 1) 65535)

end Sys2Proof.Machine
end

