-- ==== Sys2Proof/Machine/CrcTable.lean ====
section
/-! DEFINITION. BuildTable: the CRC table that hardware reset fills (47 R1101). -/

namespace Sys2Proof.Machine

/-- One of the eight shifts of BuildTable (47 R1101). -/
def crcShift (c : BitVec 16) : BitVec 16 :=
  if c.getLsbD 15 then (c <<< 1) ^^^ crcPoly else c <<< 1

/-- CRCTAB[i] as BuildTable computes it (47 R1101). -/
def crcEntry (i : Byte) : BitVec 16 := Nat.iterate crcShift 8 (i.setWidth 16 <<< 8)

/-- BuildTable (47 R1101). -/
def buildTable : Vector (BitVec 16) 256 := Vector.ofFn fun i => crcEntry (BitVec.ofFin i)

end Sys2Proof.Machine
end

