-- ==== Sys2Proof/Machine/Registers.lean ====
section
/-! DEFINITION. The registers of each unit (10 R102 to R109), their values when zeroed by hardware reset (70 R1300
step 1), and what ResetToBitSync does to the two units it writes (43 R720). -/

namespace Sys2Proof.Machine

/-- CarrierPLL registers (10 R102). BIT_PHASE and GAIN are derived and have no storage. -/
structure Pll where
  /-- PHASE, u32. -/
  phase : BitVec 32
  /-- CYCLE, u8. -/
  cycle : BitVec 8
  /-- ETA, int64. -/
  eta : BitVec 64
  /-- PRO_PHASE, int64. -/
  proPhase : BitVec 64
  /-- INT_PHASE, int32. -/
  intPhase : BitVec 32
  /-- PHCOS, int48. -/
  phcos : BitVec 48
  /-- PHSIN, int48. -/
  phsin : BitVec 48
  /-- PHASE_ERR, int48. -/
  phaseErr : BitVec 48
  /-- CORR_C[0..W−1], int32 each. -/
  corrC : List (BitVec 32)
  /-- CORR_S[0..W−1], int32 each. -/
  corrS : List (BitVec 32)
  /-- CORR_IDX, u8. -/
  corrIdx : BitVec 8
  /-- GAIN_INDEX, u8. -/
  gainIndex : BitVec 8
  /-- AGC_HOLD. -/
  agcHold : Bool
  /-- PHASE_HOLD. -/
  phaseHold : Bool
deriving DecidableEq, Repr

/-- BitSquarer registers (10 R104). -/
structure Squarer where
  /-- DET_BIT. -/
  detBit : Bool
  /-- HYST_CNT, u16. -/
  hystCnt : BitVec 16
  /-- TRANS. -/
  trans : Bool
deriving DecidableEq, Repr

/-- The five values of RX_MODE; values 5 to 7 never occur (10 R105). -/
inductive RxMode where
  | findBitsync | findWordsync | findData | findEop | eopHoldOff
deriving DecidableEq, Repr

/-- The encoding of RX_MODE (10 R105). -/
def rxModeCode : RxMode → BitVec 3
  | .findBitsync => 0
  | .findWordsync => 1
  | .findData => 2
  | .findEop => 3
  | .eopHoldOff => 4

/-- ReceiveStateMachine registers (10 R106). -/
structure Rx where
  /-- RX_MODE. -/
  mode : RxMode
  /-- DET_DATA, u16. -/
  detData : BitVec 16
  /-- POLARITY. -/
  polarity : Bool
  /-- BYTE_COUNT, u8. -/
  byteCount : BitVec 8
  /-- BIT_COUNT, u4. -/
  bitCount : BitVec 4
  /-- MODE_COUNTER, u16. -/
  modeCounter : BitVec 16
  /-- HOLD_OFF, int16. -/
  holdOff : BitVec 16
  /-- MSG_PENDING. -/
  msgPending : Bool
  /-- BIT_DUE. -/
  bitDue : Bool
  /-- SINCE_TRANS, u16, saturating. -/
  sinceTrans : BitVec 16
  /-- MODE_SNAP. -/
  modeSnap : Bool
  /-- BIT_EVT. -/
  bitEvt : Bool
  /-- RXBUF[0..35]. -/
  rxbuf : Vector Byte 36
deriving DecidableEq, Repr

/-- Validator registers (10 R107). -/
structure Validator where
  /-- RXOUT[0..35]. -/
  rxout : Vector Byte 36
  /-- RX_OUT_LEN, u8. -/
  rxOutLen : BitVec 8
  /-- RX_VALID. -/
  rxValid : Bool
  /-- RX_RESULT: 0 none, 1 good, 2 CRC error. -/
  rxResult : BitVec 2
deriving DecidableEq, Repr

/-- TransmitFramer registers (10 R108). TX_DONE is derived and has no storage. -/
structure Tx where
  /-- TXUSER[0..31]. -/
  txuser : Vector Byte 32
  /-- TXDATA[0..28]. -/
  txdata : Vector (BitVec 16) 29
  /-- TX_MSG_LEN, u16. -/
  txMsgLen : BitVec 16
  /-- TX_BIT_NUM, u16, saturating. -/
  txBitNum : BitVec 16
  /-- TX_MODE. -/
  txMode : Bool
  /-- TX_BIT_PENDING. -/
  txBitPending : Bool
  /-- TX_BIT. -/
  txBit : Bool
deriving DecidableEq, Repr

/-- CRCEngine registers (10 R109). -/
structure CrcEngine where
  /-- CRCTAB[0..255]. -/
  crcTab : Vector (BitVec 16) 256
  /-- CRC_REG. -/
  crcReg : BitVec 16
deriving DecidableEq, Repr

/-- The PLL part of ResetToBitSync (43 R720): it writes every register of 10 R102. -/
def pllToBitSync (c : Config) : Pll where
  phase := 0
  cycle := 0
  eta := 0
  proPhase := 0
  intPhase := 0
  phcos := 0
  phsin := 0
  phaseErr := 0
  corrC := List.replicate c.corrWindow 0
  corrS := List.replicate c.corrWindow 0
  corrIdx := 0
  gainIndex := BitVec.ofNat 8 c.agcInitIndex
  agcHold := false
  phaseHold := false

/-- The receiver part of ResetToBitSync (43 R720): BYTE_COUNT, BIT_COUNT, RXBUF, MSG_PENDING, MODE_SNAP and BIT_EVT
are not changed. -/
def rxToBitSync (r : Rx) : Rx :=
  { r with mode := .findBitsync, detData := 0, modeCounter := 0, holdOff := 0, bitDue := false,
           sinceTrans := 0, polarity := false }

/-- The BitSquarer after hardware reset (10 R104). -/
def squarerZero : Squarer where
  detBit := false
  hystCnt := 0
  trans := false

/-- The receive registers zeroed by hardware reset (10 R106, 70 R1300 step 1). -/
def rxZero : Rx where
  mode := .findBitsync
  detData := 0
  polarity := false
  byteCount := 0
  bitCount := 0
  modeCounter := 0
  holdOff := 0
  msgPending := false
  bitDue := false
  sinceTrans := 0
  modeSnap := false
  bitEvt := false
  rxbuf := Vector.replicate 36 0

/-- The validator after hardware reset (10 R107). -/
def validatorZero : Validator where
  rxout := Vector.replicate 36 0
  rxOutLen := 0
  rxValid := false
  rxResult := 0

/-- The framer after hardware reset (10 R108). -/
def txZero : Tx where
  txuser := Vector.replicate 32 0
  txdata := Vector.replicate 29 0
  txMsgLen := 0
  txBitNum := 0
  txMode := false
  txBitPending := false
  txBit := false

end Sys2Proof.Machine
end

