-- ==== Sys2Proof/Machine/State.lean ====
section
/-! DEFINITION. The state of the machine: the block's registers and arrays (10), the configuration beside them, and
the command port's two ends. -/

namespace Sys2Proof.Machine

/-- The machine's state, plain data. -/
structure State where
  /-- The model's own: the configuration the block was built with (log entry 1). Not state of the block (10 R114). -/
  cfg : Config
  /-- CarrierPLL (10 R102). -/
  pll : Pll
  /-- BitSquarer (10 R104). -/
  sq : Squarer
  /-- ReceiveStateMachine (10 R105, R106). -/
  rx : Rx
  /-- Validator (10 R107). -/
  validator : Validator
  /-- TransmitFramer (10 R108). -/
  tx : Tx
  /-- CRCEngine (10 R109). -/
  crc : CrcEngine
  /-- STAT[0..8] (10 R110). -/
  stat : Vector (BitVec 32) 9
  /-- ERR (10 R111). -/
  err : BitVec 4
  /-- The model's own: the command words the host has issued and the block has not taken, oldest first (log entry 2). -/
  cmdIn : List Word
  /-- The model's own: the response words returned so far, oldest first (log entry 3). -/
  responses : List Word
deriving DecidableEq, Repr

/-- No rule stops the machine with a fault: "a run never faults, halts or gets stuck" (70 R1303, 60 R1200). So there
is no constructor, and nobody raises one; this is safe, because nothing the spec lets happen is hidden by it. -/
inductive Fault
deriving DecidableEq, Repr

/-- The refusals of the model. -/
inductive Refusal where
  /-- Raised by exec's arm of an instruction that has no meaning yet, by its mnemonic; no arm raises it in this
  model. Safe: the machine stops where the hardware goes on. -/
  | notModelled (mnemonic : String)
deriving DecidableEq, Repr

/-- The state after hardware reset of a block built with configuration c (70 R1300): every register zeroed, CRCTAB
filled by BuildTable, then ResetToBitSync. -/
def State.resetWith (c : Config) : State where
  cfg := c
  pll := pllToBitSync c
  sq := squarerZero
  rx := rxToBitSync rxZero
  validator := validatorZero
  tx := txZero
  crc := { crcTab := buildTable, crcReg := 0 }
  stat := Vector.replicate 9 0
  err := 0
  cmdIn := []
  responses := []

/-- The machine right after reset (70 R1300), built with some well-formed configuration (log entry 1). -/
def State.reset : State := State.resetWith Config.build.cfg

end Sys2Proof.Machine
end

