-- ==== Sys2Proof/Machine/Flags.lean ====
section
/-! DEFINITION. The derived registers (10 R102, R108, R112) and the ERR bits (10 R111). -/

namespace Sys2Proof.Machine

/-- BIT_PHASE = CYCLE·Q + ((PHASE >> 10) >> 2), derived each time it is read (41 R507). -/
def bitPhase (c : Config) (p : Pll) : Nat :=
  p.cycle.toNat * c.quarterLen + p.phase.toNat / 2 ^ phaseFracBits / 4

/-- GAIN = GAIN_TABLE[GAIN_INDEX] (10 R102). -/
def gainOf (c : Config) (p : Pll) : BitVec 16 := c.gain p.gainIndex.toNat

/-- TX_DONE = (TX_BIT_NUM > TX_MSG_LEN) (46 R1015). -/
def txDone (t : Tx) : Bool := decide (t.txMsgLen.toNat < t.txBitNum.toNat)

/-- STATUS, bit 31 first (10 R112). -/
def statusWord (s : State) : Word :=
  0#15 ++ BitVec.ofBool s.rx.bitEvt ++ rxModeCode s.rx.mode ++ BitVec.ofBool (txDone s.tx) ++
  BitVec.ofBool s.tx.txBit ++ BitVec.ofBool s.tx.txBitPending ++ BitVec.ofBool s.tx.txMode ++
  BitVec.ofBool s.rx.modeSnap ++ BitVec.ofBool s.rx.bitDue ++ BitVec.ofBool s.pll.phaseHold ++
  BitVec.ofBool s.pll.agcHold ++ BitVec.ofBool s.rx.polarity ++
  BitVec.ofBool s.validator.rxValid ++ BitVec.ofBool s.rx.msgPending ++
  BitVec.ofBool s.sq.trans ++ BitVec.ofBool s.sq.detBit

/-- The errors that reject a command (60 R1202). -/
inductive CmdError where
  | cmd | len | idx | addr
deriving DecidableEq, Repr

/-- The ERR bit of an error (10 R111). -/
def errBit : CmdError → BitVec 4
  | .cmd => 0b0001
  | .len => 0b0010
  | .idx => 0b0100
  | .addr => 0b1000

/-- The counters of STAT (10 R110). -/
inductive StatName where
  | bitsyncFound | wordsyncFound | wordsyncTimeout | eopFound | eopTimeout | msgTooLong
  | rxErrParity | rxGood | rxErrCrc
deriving DecidableEq, Repr

/-- The index of a counter in STAT (10 R110). -/
def statIndex : StatName → Fin 9
  | .bitsyncFound => 0
  | .wordsyncFound => 1
  | .wordsyncTimeout => 2
  | .eopFound => 3
  | .eopTimeout => 4
  | .msgTooLong => 5
  | .rxErrParity => 6
  | .rxGood => 7
  | .rxErrCrc => 8

end Sys2Proof.Machine
end

