-- ==== Sys2Proof/Machine/Ops.lean ====
section
/-! DEFINITION. The operations the commands share: taking a command from the port, responding, rejecting,
counting an event, ResetToBitSync, and the READ map. The block takes no exception (60 R1200); `reject` is the one
shared operation of its error events. -/

namespace Sys2Proof.Machine

/-- The next command word of the port and the state with it taken; none when the host has issued none (40 R400). -/
def takeCommand (s : State) : Option (Word × State) :=
  match s.cmdIn with
  | [] => none
  | w :: rest => some (w, { s with cmdIn := rest })

/-- The host issues a command word ahead of those waiting. -/
def issueFirst (w : Word) (s : State) : State := { s with cmdIn := w :: s.cmdIn }

/-- The command's response word (40 R400, R403). -/
def respond (r : Word) (s : State) : State := { s with responses := s.responses ++ [r] }

/-- reject(E): ERR[E] <- 1, nothing else written, response 0 (40 R402). -/
def reject (e : CmdError) (s : State) : State := respond 0 { s with err := s.err ||| errBit e }

/-- stat(NAME): STAT[NAME] <- (STAT[NAME] + 1) mod 2^32 (00 R12). -/
def countEvent (n : StatName) (s : State) : State :=
  { s with stat := s.stat.set (statIndex n) (s.stat[statIndex n] + 1) }

/-- ResetToBitSync() (43 R720). -/
def resetToBitSync (s : State) : State :=
  { s with pll := pllToBitSync s.cfg, rx := rxToBitSync s.rx }

/-- One row of the READ map: `count` addresses from `base`, and the value at each (20 R202). -/
structure ReadRow where
  /-- The first address. -/
  base : Nat
  /-- How many addresses the row has. -/
  count : Nat
  /-- The value at address base + i. -/
  value : Nat → Word

/-- The READ map (20 R202), row by row. -/
def readRows (s : State) : List ReadRow :=
  [ ⟨0x0000, 36, fun i => zext (s.rx.rxbuf[i]?.getD 0)⟩,
    ⟨0x0040, 36, fun i => zext (s.validator.rxout[i]?.getD 0)⟩,
    ⟨0x0080, 32, fun i => zext (s.tx.txuser[i]?.getD 0)⟩,
    ⟨0x00C0, 29, fun i => zext (s.tx.txdata[i]?.getD 0)⟩,
    ⟨0x0100, 256, fun i => zext (s.crc.crcTab[i]?.getD 0)⟩,
    ⟨0x0200, s.cfg.corrWindow, fun i => s.pll.corrC[i]?.getD 0⟩,
    ⟨0x0300, s.cfg.corrWindow, fun i => s.pll.corrS[i]?.getD 0⟩,
    ⟨0x0400, 1, fun _ => statusWord s⟩,
    ⟨0x0401, 1, fun _ => zext (rxModeCode s.rx.mode)⟩,
    ⟨0x0402, 1, fun _ => zext s.rx.detData⟩,
    ⟨0x0403, 1, fun _ => zext s.rx.byteCount⟩,
    ⟨0x0404, 1, fun _ => zext s.rx.bitCount⟩,
    ⟨0x0405, 1, fun _ => zext s.rx.modeCounter⟩,
    ⟨0x0406, 1, fun _ => sext s.rx.holdOff⟩,
    ⟨0x0407, 1, fun _ => zext s.rx.sinceTrans⟩,
    ⟨0x0408, 1, fun _ => zext s.sq.hystCnt⟩,
    ⟨0x0409, 1, fun _ => zext s.validator.rxOutLen⟩,
    ⟨0x040A, 1, fun _ => zext s.validator.rxResult⟩,
    ⟨0x040B, 1, fun _ => zext s.err⟩,
    ⟨0x0410, 1, fun _ => s.pll.phase⟩,
    ⟨0x0411, 1, fun _ => zext s.pll.cycle⟩,
    ⟨0x0412, 1, fun _ => BitVec.ofNat 32 (bitPhase s.cfg s.pll)⟩,
    ⟨0x0413, 1, fun _ => zext s.pll.gainIndex⟩,
    ⟨0x0414, 1, fun _ => zext s.pll.corrIdx⟩,
    ⟨0x0415, 1, fun _ => s.pll.intPhase⟩,
    ⟨0x0416, 1, fun _ => lowHalf s.pll.eta⟩,
    ⟨0x0417, 1, fun _ => highHalf64 s.pll.eta⟩,
    ⟨0x0418, 1, fun _ => lowHalf s.pll.proPhase⟩,
    ⟨0x0419, 1, fun _ => highHalf64 s.pll.proPhase⟩,
    ⟨0x041A, 1, fun _ => lowHalf s.pll.phcos⟩,
    ⟨0x041B, 1, fun _ => highHalf48 s.pll.phcos⟩,
    ⟨0x041C, 1, fun _ => lowHalf s.pll.phsin⟩,
    ⟨0x041D, 1, fun _ => highHalf48 s.pll.phsin⟩,
    ⟨0x041E, 1, fun _ => lowHalf s.pll.phaseErr⟩,
    ⟨0x041F, 1, fun _ => highHalf48 s.pll.phaseErr⟩,
    ⟨0x0420, 1, fun _ => zext s.tx.txMsgLen⟩,
    ⟨0x0421, 1, fun _ => zext s.tx.txBitNum⟩,
    ⟨0x0422, 1, fun _ => zext s.crc.crcReg⟩,
    ⟨0x0423, 1, fun _ => zext (gainOf s.cfg s.pll)⟩,
    ⟨0x0500, 9, fun i => s.stat[i]?.getD 0⟩ ]

/-- MemRead(a, 4): the value at a READ address, none where it is unmapped (20 R201, R203). -/
def readMap (s : State) (a : Nat) : Option Word :=
  (readRows s).findSome? fun r =>
    if r.base ≤ a ∧ a < r.base + r.count then some (r.value (a - r.base)) else none

end Sys2Proof.Machine
end

