-- ==== Sys2Proof/Machine/Crc.lean ====
section
/-! DEFINITION. CRCEngine (47): the byte step, CRC of a byte sequence, CRC_INIT and CRC_BYTE. -/

namespace Sys2Proof.Machine

/-- Step(reg, byte) (47 R1102). -/
def crcStep (tab : Vector (BitVec 16) 256) (reg : BitVec 16) (b : Byte) : BitVec 16 :=
  (reg <<< 8) ^^^ tab[(reg.extractLsb' 8 8).toNat]'(reg.extractLsb' 8 8).isLt ^^^ b.setWidth 16

/-- CRC(bytes) (47 R1103). -/
def crcOf (tab : Vector (BitVec 16) 256) (bytes : List Byte) : BitVec 16 :=
  bytes.foldl (crcStep tab) crcSeed

/-- CRC_REG <- v; the response is CRC_REG (40 R403). -/
def setCrcReg (v : BitVec 16) (s : State) : State :=
  respond (zext v) { s with crc := { s.crc with crcReg := v } }

/-- CRC_INIT (47 R1104). -/
def execCrcInit (s : State) : Host.Outcome State Fault Refusal :=
  .next (setCrcReg crcSeed s)

/-- CRC_BYTE (47 R1105). -/
def execCrcByte (byte : Byte) (s : State) : Host.Outcome State Fault Refusal :=
  .next (setCrcReg (crcStep s.crc.crcTab s.crc.crcReg byte) s)

end Sys2Proof.Machine
end

