-- ==== Sys2Proof/Machine/Framer.lean ====
section
/-! DEFINITION. TransmitFramer and bit server: TXBUF_WR, TX_ENCODE, TX_NEXT_BIT, TX_ACK_BIT and TX_SET_RX (46). -/

namespace Sys2Proof.Machine

/-- TXDATA while a frame is built, and the stream position `pos` (46 R1001, R1011). -/
structure FrameBuf where
  /-- TXDATA. -/
  words : Vector (BitVec 16) 29
  /-- The number of bits appended. -/
  pos : Nat
deriving DecidableEq, Repr

/-- One turn of Put: stream bit k stands in TXDATA[k >> 4] at bit 15 − (k mod 16) (46 R1001, 20 R206). -/
def putBit (b : Bool) (f : FrameBuf) : FrameBuf where
  words := if b then
      f.words.setIfInBounds (f.pos / 16)
        (f.words[f.pos / 16]?.getD 0 ||| BitVec.ofNat 16 (2 ^ (15 - f.pos % 16)))
    else f.words
  pos := f.pos + 1

/-- Put(v, nb): the nb low bits of v, most significant first (46 R1001). -/
def put {w : Nat} (v : BitVec w) : (nb : Nat) → FrameBuf → FrameBuf
  | 0, f => f
  | nb + 1, f => put v nb (putBit (v.getLsbD nb) f)

/-- Put of each 16-bit word of a list, in order. -/
def putWords (ws : List (BitVec 16)) (f : FrameBuf) : FrameBuf :=
  ws.foldl (fun g w => put w 16 g) f

/-- Put of the codeword of each byte of a list, in order (45 R901). -/
def putBytes (c : Config) (bs : List Byte) (f : FrameBuf) : FrameBuf :=
  bs.foldl (fun g b => put (c.precode b) codewordLen g) f

/-- The two CRC bytes on the wire, high byte first (20 R204). -/
def crcBytes (crc : BitVec 16) : List Byte := [crc.extractLsb' 8 8, crc.extractLsb' 0 8]

/-- TXUSER[0 .. len−1]. -/
def txPayload (t : Tx) (len : Nat) : List Byte := t.txuser.toList.take len

/-- The frame of a payload: header, payload codewords, CRC codewords, trailer (46 R1000, R1011). -/
def buildFrame (c : Config) (tab : Vector (BitVec 16) 256) (payload : List Byte) : FrameBuf :=
  putWords c.txTrailer.toList
    (putBytes c (crcBytes (crcOf tab payload))
      (putBytes c payload
        (putWords c.txHeader.toList { words := Vector.replicate 29 0, pos := 0 })))

/-- The frame put into TXDATA and the cursor restarted (46 R1011). -/
def loadFrame (f : FrameBuf) (t : Tx) : Tx :=
  { t with
    txdata := f.words
    txMsgLen := BitVec.ofNat 16 f.pos
    txMode := true
    txBitNum := 0
    txBitPending := false }

/-- The bit TX_NEXT_BIT serves at cursor i (46 R1012). -/
def servedBit (t : Tx) (i : Nat) : Bool :=
  if i / 16 < txBufWords then (t.txdata[i / 16]?.getD 0).getLsbD (15 - i % 16) else false

/-- The bit server's registers after one bit (46 R1012). -/
def serveBit (t : Tx) : Tx :=
  { t with
    txBitNum := satInc16 t.txBitNum
    txBit := servedBit t t.txBitNum.toNat
    txBitPending := true }

/-- b | (TX_DONE << 1) (46 R1012). -/
def nextBitResponse (t : Tx) : Word :=
  zext (BitVec.ofBool t.txBit) ||| zext (BitVec.ofBool (txDone t)) <<< 1

/-- TXBUF_WR (46 R1010). -/
def execTxbufWr (idx : BitVec 8) (byte : Byte) (s : State) : Host.Outcome State Fault Refusal :=
  .next (if unsignedOperand idx > 31 then reject .idx s
    else respond 0 { s with tx := { s.tx with
      txuser := s.tx.txuser.setIfInBounds (unsignedOperand idx) byte } })

/-- The state after TX_ENCODE of a legal length, without the response (46 R1011). -/
def encodeFrame (len : Nat) (s : State) : State :=
  { s with tx := loadFrame (buildFrame s.cfg s.crc.crcTab (txPayload s.tx len)) s.tx }

/-- TX_ENCODE (46 R1011). -/
def execTxEncode (len : BitVec 8) (s : State) : Host.Outcome State Fault Refusal :=
  .next (if unsignedOperand len > maxTxMsgLen then reject .len s
    else respond (zext (encodeFrame (unsignedOperand len) s).tx.txMsgLen)
      (encodeFrame (unsignedOperand len) s))

/-- TX_NEXT_BIT (46 R1012). -/
def execTxNextBit (s : State) : Host.Outcome State Fault Refusal :=
  .next (respond (nextBitResponse (serveBit s.tx)) { s with tx := serveBit s.tx })

/-- TX_ACK_BIT (46 R1013). -/
def execTxAckBit (s : State) : Host.Outcome State Fault Refusal :=
  .next (respond 0 { s with tx := { s.tx with txBitPending := false } })

/-- TX_SET_RX (46 R1014). -/
def execTxSetRx (s : State) : Host.Outcome State Fault Refusal :=
  .next (respond 0 { s with tx := { s.tx with txMode := false } })

end Sys2Proof.Machine
end

