-- ==== Sys2Proof/Machine/BitSquarer.lean ====
section
/-! DEFINITION. BitSquarer: the hysteresis bit slicer (42 R600). -/

namespace Sys2Proof.Machine

/-- Whether v is past the threshold on the side opposite to DET_BIT (42 R600, R601). -/
def beyond (c : Config) (v : Int) (detBit : Bool) : Bool :=
  if detBit then decide (v < -(c.thresholdV : Int)) else decide ((c.thresholdV : Int) < v)

/-- Square(v) (42 R600). -/
def square (c : Config) (v : Int) (q : Squarer) : Squarer :=
  if beyond c v q.detBit then
    if (q.hystCnt + 1).toNat > c.thresholdT then
      { detBit := !q.detBit, hystCnt := 0, trans := true }
    else { q with hystCnt := q.hystCnt + 1, trans := false }
  else { q with hystCnt := 0, trans := false }

end Sys2Proof.Machine
end

