-- ==== Sys2Proof/Machine/CarrierPll.lean ====
section
/-! DEFINITION. CarrierPLL with AGC: Track, step by step (41 R500). Each step reads the registers as the earlier
steps of the same sample left them. -/

namespace Sys2Proof.Machine

/-- (X * GAIN_TABLE[g]) >> GAIN_SHIFT (41 R502). -/
def agcScale (c : Config) (x : Int) (g : Nat) : Int :=
  asr (x * ((c.gain g).toNat : Int)) c.gainShift

/-- The overflow loop of step 1: the scaled sample and the gain index it ends with (41 R502, R503).
DEDUCED (log entry 4): `fuel` = GAIN_INDEX + 1 turns are enough, by 41 R504. -/
def agcLoop (c : Config) (x : Int) : (fuel : Nat) → (g : Nat) → Int × Nat
  | 0, g => (sat16 (agcScale c x g), g)
  | fuel + 1, g =>
    if Fits16 (agcScale c x g) then (agcScale c x g, g)
    else if g = 0 then (sat16 (agcScale c x g), g)
    else agcLoop c x fuel (g - c.agcOvfDec)

/-- Step 1: the AGC pre-scale (41 R501 to R504). -/
def agcPrescale (c : Config) (x : Int) (p : Pll) : Int × Pll :=
  if c.agcEnable then
    let r := agcLoop c x (p.gainIndex.toNat + 1) p.gainIndex.toNat
    (r.1, { p with gainIndex := BitVec.ofNat 8 r.2 })
  else (x, p)

/-- (PHASE + ETA0 + ETA) mod M (41 R505). -/
def nextPhase (c : Config) (p : Pll) : Nat :=
  (((p.phase.toNat : Int) + c.eta0 + p.eta.toInt) % (c.phaseMod : Int)).toNat

/-- (CYCLE + 1) mod N (41 R506). -/
def nextCycle (c : Config) (p : Pll) : Nat := (p.cycle.toNat + 1) % c.cyclesPerBit

/-- The wrap condition: new phase ≤ old phase (41 R506). -/
def phaseWraps (c : Config) (p : Pll) : Bool := decide (nextPhase c p ≤ p.phase.toNat)

/-- bitWrap: a wrap after which CYCLE = 0 (41 R506). -/
def bitWraps (c : Config) (p : Pll) : Bool := phaseWraps c p && decide (nextCycle c p = 0)

/-- Step 2: oscillator phase and cycle counter (41 R505, R506). -/
def phaseUpdate (c : Config) (p : Pll) : Pll :=
  { p with
    phase := BitVec.ofNat 32 (nextPhase c p)
    cycle := if phaseWraps c p then BitVec.ofNat 8 (nextCycle c p) else p.cycle }

/-- The table index idx = PHASE >> 10 (41 R508). -/
def sineIndex (p : Pll) : Nat := p.phase.toNat / 2 ^ phaseFracBits

/-- cosRef = SINE_TABLE[idx] (41 R508). -/
def cosRef (c : Config) (p : Pll) : Int := c.sine (sineIndex p)

/-- sinRef = SINE_TABLE[(idx + Q) mod L] (41 R508). -/
def sinRef (c : Config) (p : Pll) : Int := c.sine ((sineIndex p + c.quarterLen) % c.sineLen)

/-- The entry of a delay line that the new product replaces (41 R510). -/
def evicted (dl : List (BitVec 32)) (k : Nat) : Int := (dl[k]?.getD 0).toInt

/-- The running sum after one product enters the window (41 R510). -/
def slideSum (sum : BitVec 48) (dl : List (BitVec 32)) (k : Nat) (prod : Int) : BitVec 48 :=
  BitVec.ofInt 48 (sum.toInt - evicted dl k + prod)

/-- Steps 3 and 4: quadrature references and sliding correlation (41 R508 to R510). -/
def correlate (c : Config) (xs : Int) (p : Pll) : Pll :=
  let pc := cosRef c p * xs
  let ps := sinRef c p * xs
  let k := p.corrIdx.toNat
  { p with
    phcos := slideSum p.phcos p.corrC k pc
    phsin := slideSum p.phsin p.corrS k ps
    corrC := p.corrC.set k (BitVec.ofInt 32 pc)
    corrS := p.corrS.set k (BitVec.ofInt 32 ps)
    corrIdx := BitVec.ofNat 8 ((k + 1) % c.corrWindow) }

/-- Step 5: PHASE_ERR (41 R511). -/
def phaseError (p : Pll) : Pll :=
  { p with phaseErr := if p.phcos.toInt < 0 then BitVec.ofInt 48 (-p.phsin.toInt) else p.phsin }

/-- PRO_PHASE of step 6 (41 R513). -/
def nextProPhase (c : Config) (p : Pll) : Int := asr (p.phaseErr.toInt * c.kp.toInt) c.kpShift

/-- INT_PHASE of step 6 (41 R513). -/
def nextIntPhase (c : Config) (p : Pll) : Int :=
  clamp (p.intPhase.toInt + asr (p.phaseErr.toInt * c.ki.toInt) c.kiShift)
    (-(c.intLimit : Int)) c.intLimit

/-- Step 6: the loop filter, skipped while PHASE_HOLD = 1 (41 R512, R513). -/
def loopFilter (c : Config) (p : Pll) : Pll :=
  if p.phaseHold then p
  else { p with
    proPhase := BitVec.ofInt 64 (nextProPhase c p)
    intPhase := BitVec.ofInt 32 (nextIntPhase c p)
    eta := BitVec.ofInt 64 (nextProPhase c p + nextIntPhase c p) }

/-- The gain index step 7 moves to (41 R514). -/
def nextGainIndex (c : Config) (p : Pll) : Nat :=
  if p.phcos.toInt.natAbs < c.agcThreshold then min (p.gainIndex.toNat + 1) (c.gainLen - 1)
  else p.gainIndex.toNat - 2

/-- Step 7: AGC feedback, skipped while AGC_HOLD = 1 or the AGC is disabled (41 R501, R514). -/
def agcFeedback (c : Config) (p : Pll) : Pll :=
  if c.agcEnable ∧ p.agcHold = false then { p with gainIndex := BitVec.ofNat 8 (nextGainIndex c p) }
  else p

/-- Track(X): the new registers and bitWrap (41 R500). The value passed to Square is the new PHCOS (41 R515). -/
def track (c : Config) (x : Int) (p : Pll) : Pll × Bool :=
  let a := agcPrescale c x p
  (agcFeedback c (loopFilter c (phaseError (correlate c a.1 (phaseUpdate c a.2)))), bitWraps c a.2)

end Sys2Proof.Machine
end

