-- ==== Sys2Proof/Machine/Receiver.lean ====
section
/-! DEFINITION. ReceiveStateMachine: the bit step per mode (43 R714 to R717), the per-sample step (43 R710) and
RX_RESET (43 R721). -/

namespace Sys2Proof.Machine

/-- RXBUF[BYTE_COUNT] <- DET_DATA[10:3]; BYTE_COUNT <- BYTE_COUNT + 1 (43 R717 (d)). -/
def storeByte (s : State) : State :=
  { s with rx := { s.rx with
      rxbuf := s.rx.rxbuf.setIfInBounds s.rx.byteCount.toNat (codewordByte s.rx.detData)
      byteCount := s.rx.byteCount + 1 } }

/-- Whether the codeword in DET_DATA is not the table's codeword of its byte (43 R717 (d), 45 R903). -/
def parityMismatch (c : Config) (d : BitVec 16) : Bool :=
  decide (c.precode (codewordByte d) ≠ codewordBits d)

/-- The soft parity check of FIND_DATA (43 R717 (d), R723). -/
def checkParity (s : State) : State :=
  if s.rx.mode = .findData ∧ parityMismatch s.cfg s.rx.detData then countEvent .rxErrParity s else s

/-- FIND_DATA to FIND_EOP when BYTE_COUNT = FIND_EOP_AFTER (43 R717 (d), R719). -/
def enterFindEop (s : State) : State :=
  if s.rx.mode = .findData ∧ s.rx.byteCount.toNat = findEopAfter then
    { s with rx := { s.rx with mode := .findEop } }
  else s

/-- BIT_COUNT <- CODEWORD_LEN; DET_DATA <- 0 (43 R717 (d)). -/
def nextCodeword (s : State) : State :=
  { s with rx := { s.rx with bitCount := BitVec.ofNat 4 codewordLen, detData := 0 } }

/-- An EOP codeword: case (c) of CodewordDone (43 R717). -/
def eopFound (seed : BitVec 11) (s : State) : State :=
  countEvent .eopFound { s with rx := { s.rx with
    msgPending := true, mode := .eopHoldOff, holdOff := seedOperand seed } }

/-- CodewordDone(SEED): the first of the cases (a) to (d) that applies (43 R717). -/
def codewordDone (seed : BitVec 11) (s : State) : State :=
  if s.rx.modeCounter.toNat > s.cfg.findEopTimeout then
    resetToBitSync (countEvent .eopTimeout s)
  else if s.rx.byteCount.toNat ≥ maxRxMsgLen then
    resetToBitSync (countEvent .msgTooLong s)
  else if s.rx.detData = eopPattern then
    eopFound seed s
  else
    nextCodeword (enterFindEop (checkParity (storeByte s)))

/-- SampleBit in FIND_BITSYNC (43 R714). -/
def sampleBitsync (b : Bool) (s : State) : State :=
  let d := shiftIn s.rx.detData b
  if d = bitsyncPattern then
    countEvent .bitsyncFound
      { s with
        rx := { s.rx with mode := .findWordsync, detData := 0, modeCounter := 0, modeSnap := s.tx.txMode }
        pll := { s.pll with agcHold := true } }
  else { s with rx := { s.rx with detData := d } }

/-- SampleBit in FIND_WORDSYNC (43 R715). -/
def sampleWordsync (b : Bool) (s : State) : State :=
  let d := shiftIn s.rx.detData b
  let n := s.rx.modeCounter + 1
  if d = wordsyncPattern ∨ d = wordsyncInverted then
    countEvent .wordsyncFound
      { s with rx := { s.rx with
          polarity := decide (d = wordsyncInverted), mode := .findData, byteCount := 0,
          bitCount := BitVec.ofNat 4 codewordLen, detData := 0, modeCounter := 0 } }
  else if n.toNat > s.cfg.findWordsyncTimeout then
    resetToBitSync (countEvent .wordsyncTimeout
      { s with rx := { s.rx with detData := d, modeCounter := n } })
  else { s with rx := { s.rx with detData := d, modeCounter := n } }

/-- SampleBit in FIND_DATA or FIND_EOP (43 R716). -/
def sampleData (b : Bool) (seed : BitVec 11) (s : State) : State :=
  let d := shiftIn s.rx.detData (b ^^ s.rx.polarity)
  let n := s.rx.bitCount - 1
  if n = 0 then
    codewordDone seed { s with rx := { s.rx with
      detData := d, bitCount := n, modeCounter := s.rx.modeCounter + 1 } }
  else { s with rx := { s.rx with detData := d, bitCount := n } }

/-- SampleBit(b, SEED), the mode-dependent bit step (43 R713 to R717). RxStep never samples a bit in EOP_HOLD_OFF. -/
def sampleBit (b : Bool) (seed : BitVec 11) (s : State) : State :=
  match s.rx.mode with
  | .findBitsync => sampleBitsync b s
  | .findWordsync => sampleWordsync b s
  | .findData => sampleData b seed s
  | .findEop => sampleData b seed s
  | .eopHoldOff => s

/-- SINCE_TRANS <- min(SINCE_TRANS + 1, 65535) (43 R710). -/
def countSample (s : State) : State :=
  { s with rx := { s.rx with sinceTrans := satInc16 s.rx.sinceTrans } }

/-- The bit clock of a bit wrap (43 R711). -/
def bitWrapClock (bitWrap : Bool) (s : State) : State :=
  if bitWrap then
    { s with
      pll := { s.pll with phaseHold := false }
      rx := { s.rx with bitDue := if s.rx.mode = .findBitsync then s.rx.bitDue else true } }
  else s

/-- Whether the interval since the previous transition is outside BIT_PERIOD_SAMPLES ± BIT_TOL (43 R712). -/
def outsideWindow (c : Config) (sinceTrans : BitVec 16) : Bool :=
  decide (((sinceTrans.toNat : Int) - c.bitPeriodSamples).natAbs > c.bitTol)

/-- The bit clock of a transition in FIND_BITSYNC (43 R712). -/
def transitionClock (s : State) : State :=
  if s.rx.mode = .findBitsync ∧ s.sq.trans then
    { s with
      pll := { s.pll with cycle := 0, phaseHold := false }
      rx := { s.rx with
        detData := if outsideWindow s.cfg s.rx.sinceTrans then 0 else s.rx.detData
        sinceTrans := 0
        bitDue := true } }
  else s

/-- The sample point: a due bit is sampled when BIT_PHASE > BIT_HOLD_PHASE (43 R713). -/
def samplePoint (seed : BitVec 11) (s : State) : State :=
  if s.rx.bitDue ∧ bitPhase s.cfg s.pll > s.cfg.bitHoldPhase then
    sampleBit s.sq.detBit seed
      { s with
        pll := { s.pll with phaseHold := true }
        rx := { s.rx with bitDue := false, bitEvt := true } }
  else s

/-- RxStep outside the hold-off (43 R710). -/
def rxActive (bitWrap : Bool) (seed : BitVec 11) (s : State) : State :=
  samplePoint seed (transitionClock (bitWrapClock bitWrap (countSample s)))

/-- RxStep(bitWrap, SEED) (43 R710, R718). -/
def rxStep (bitWrap : Bool) (seed : BitVec 11) (s : State) : State :=
  if s.rx.mode = .eopHoldOff then
    let n := s.rx.holdOff - 1
    if n.toInt > 0 then { s with rx := { s.rx with holdOff := n } }
    else rxActive false seed (resetToBitSync { s with rx := { s.rx with holdOff := n } })
  else rxActive bitWrap seed s

/-- RX_RESET (43 R721). -/
def execRxReset (s : State) : Host.Outcome State Fault Refusal :=
  .next (respond 0 (resetToBitSync s))

end Sys2Proof.Machine
end

