-- ==== Sys2Proof/Machine/HostCommands.lean ====
section
/-! DEFINITION. The commands that belong to no single unit: NOP, READ and SAMPLE (40). -/

namespace Sys2Proof.Machine

/-- NOP (40 R404). -/
def execNop (s : State) : Host.Outcome State Fault Refusal :=
  .next (respond 0 s)

/-- READ (40 R405). -/
def execRead (addr : BitVec 16) (s : State) : Host.Outcome State Fault Refusal :=
  .next (match readMap s (unsignedOperand addr) with
    | some v => respond v s
    | none => reject .addr s)

/-- Track's part of SAMPLE: BIT_EVT <- 0, then the new PLL registers (40 R410). -/
def sampleTrack (x : BitVec 16) (s : State) : State :=
  { s with
    pll := (track s.cfg (sampleOperand x) s.pll).1
    rx := { s.rx with bitEvt := false } }

/-- Square's part of SAMPLE: it slices the new PHCOS (40 R410, 41 R515). -/
def sampleSquare (s : State) : State :=
  { s with sq := square s.cfg s.pll.phcos.toInt s.sq }

/-- The whole receive chain of one sample: Track, Square, RxStep (40 R410). -/
def sampleChain (seed : BitVec 11) (x : BitVec 16) (s : State) : State :=
  rxStep (track s.cfg (sampleOperand x) s.pll).2 seed (sampleSquare (sampleTrack x s))

/-- SAMPLE; the response is STATUS after the command (40 R403, R410). -/
def execSample (seed : BitVec 11) (x : BitVec 16) (s : State) : Host.Outcome State Fault Refusal :=
  .next (respond (statusWord (sampleChain seed x s)) (sampleChain seed x s))

end Sys2Proof.Machine
end

