-- ==== Sys2Proof/Machine/MsgValidator.lean ====
section
/-! DEFINITION. The receive message validator: RX_VALIDATE and RX_ACK (44). -/

namespace Sys2Proof.Machine

/-- RXBUF[i]. -/
def rxByte (s : State) (i : Nat) : Byte := s.rx.rxbuf[i]?.getD 0

/-- One trial of RX_VALIDATE: the first m bytes of RXBUF end with the CRC of those before it, high byte first
(44 R801, 20 R204). -/
def trialGood (s : State) (m : Nat) : Bool :=
  decide (2 ≤ m) &&
  decide (crcOf s.crc.crcTab (s.rx.rxbuf.toList.take (m - 2)) = rxByte s (m - 2) ++ rxByte s (m - 1))

/-- The smallest k of 0, 1, 2 whose trial is good; k trailing artifacts are stripped (44 R801). -/
def goodTrial (s : State) : Option Nat :=
  [0, 1, 2].find? fun k => trialGood s (s.rx.byteCount.toNat - k)

/-- RXOUT[0 .. p−1] <- RXBUF[0 .. p−1], the rest keeping its contents (44 R801). -/
def copyPayload (p : Nat) (src dst : Vector Byte 36) : Vector Byte 36 :=
  Vector.ofFn fun i => if i.val < p then src[i] else dst[i]

/-- A good message of p payload bytes (44 R801). -/
def acceptMessage (p : Nat) (s : State) : State :=
  countEvent .rxGood { s with validator := {
    rxout := copyPayload p s.rx.rxbuf s.validator.rxout
    rxOutLen := BitVec.ofNat 8 p
    rxValid := true
    rxResult := 1 } }

/-- A message no trial accepts (44 R801). -/
def dropMessage (s : State) : State :=
  countEvent .rxErrCrc { s with validator := { s.validator with rxResult := 2 } }

/-- MSG_PENDING <- 0 (44 R801). -/
def clearPending (s : State) : State := { s with rx := { s.rx with msgPending := false } }

/-- The effect of RX_VALIDATE without its response (44 R801). -/
def validateMessage (s : State) : State :=
  if s.rx.msgPending then
    clearPending (match goodTrial s with
      | some k => acceptMessage (s.rx.byteCount.toNat - k - 2) s
      | none => dropMessage s)
  else { s with validator := { s.validator with rxResult := 0 } }

/-- RX_RESULT | RX_OUT_LEN << 8 (44 R801). -/
def validateResponse (s : State) : Word :=
  zext s.validator.rxResult ||| zext s.validator.rxOutLen <<< 8

/-- RX_VALIDATE (44 R801). -/
def execRxValidate (s : State) : Host.Outcome State Fault Refusal :=
  .next (respond (validateResponse (validateMessage s)) (validateMessage s))

/-- RX_ACK (44 R802). -/
def execRxAck (s : State) : Host.Outcome State Fault Refusal :=
  .next (respond 0 { s with validator := { s.validator with rxValid := false } })

end Sys2Proof.Machine
end

