-- ==== Sys2Proof/Machine/Dispatch.lean ====
section
/-! DEFINITION. exec: one arm for each command (30 R303). -/

namespace Sys2Proof.Machine

def exec (i : Instr) (s : State) : Host.Outcome State Fault Refusal :=
  match i with
  | .nop => Sys2Proof.Machine.execNop s
  | .sample seed x => Sys2Proof.Machine.execSample seed x s
  | .rxReset => Sys2Proof.Machine.execRxReset s
  | .rxValidate => Sys2Proof.Machine.execRxValidate s
  | .rxAck => Sys2Proof.Machine.execRxAck s
  | .txbufWr idx byte => Sys2Proof.Machine.execTxbufWr idx byte s
  | .txEncode len => Sys2Proof.Machine.execTxEncode len s
  | .txNextBit => Sys2Proof.Machine.execTxNextBit s
  | .txAckBit => Sys2Proof.Machine.execTxAckBit s
  | .txSetRx => Sys2Proof.Machine.execTxSetRx s
  | .crcInit => Sys2Proof.Machine.execCrcInit s
  | .crcByte byte => Sys2Proof.Machine.execCrcByte byte s
  | .read addr => Sys2Proof.Machine.execRead addr s

end Sys2Proof.Machine
end

