-- ==== Sys2Proof/Machine/Step.lean ====
section
/-! DEFINITION. The command cycle (40 R400): take a command word, decode it, execute or reject it. -/

namespace Sys2Proof.Machine

/-- One command cycle. With no command waiting the state is held (60 R1210); a word that is no command is rejected
with ERR_CMD (30 R305). -/
def step (s : State) : Host.Outcome State Fault Refusal :=
  match takeCommand s with
  | none => .next s
  | some (w, s') =>
    match decode w with
    | .error _ => .next (reject .cmd s')
    | .ok i => exec i s'

/-- The host has issued the command whose bits are w as the next one (log entry 2). -/
def State.withFetchWord (s : State) (nbits w : Nat) : State := issueFirst (tableWord nbits w) s

end Sys2Proof.Machine
end

