-- ==== Sys2Proof/Safety.lean ====
section
/-! DEFINITION. The terms the claims use: the invariants of the state (10 R103, 41 R516, 43), runs of commands and
of sampled bits, and the bit stream of a frame (46 R1000). -/

namespace Sys2Proof.Machine

/-! ### Invariants -/

/-- The sum of a delay line (10 R103). -/
def lineSum (dl : List (BitVec 32)) : Int := (dl.map BitVec.toInt).sum

/-- The ranges and sums Track keeps (10 R103, 41 R516). -/
structure PllInv (c : Config) (p : Pll) : Prop where
  phase_lt : p.phase.toNat < c.phaseMod
  cycle_lt : p.cycle.toNat < c.cyclesPerBit
  bitPhase_lt : bitPhase c p < c.cyclesPerBit * c.quarterLen
  corrIdx_lt : p.corrIdx.toNat < c.corrWindow
  gainIndex_lt : p.gainIndex.toNat < c.gainLen
  corrC_length : p.corrC.length = c.corrWindow
  corrS_length : p.corrS.length = c.corrWindow
  corrC_bound : ∀ v ∈ p.corrC, v.toInt.natAbs ≤ 2 ^ 30
  corrS_bound : ∀ v ∈ p.corrS, v.toInt.natAbs ≤ 2 ^ 30
  phcos_sum : p.phcos.toInt = lineSum p.corrC
  phsin_sum : p.phsin.toInt = lineSum p.corrS
  phcos_bound : p.phcos.toInt.natAbs ≤ c.corrWindow * 2 ^ 30
  phsin_bound : p.phsin.toInt.natAbs ≤ c.corrWindow * 2 ^ 30
  phaseErr_eq : p.phaseErr.toInt = if p.phcos.toInt < 0 then -p.phsin.toInt else p.phsin.toInt
  intPhase_bound : p.intPhase.toInt.natAbs ≤ c.intLimit
  proPhase_bound : p.proPhase.toInt.natAbs < 2 ^ 53
  eta_sum : p.eta.toInt = p.proPhase.toInt + p.intPhase.toInt

/-- The receiver collects codeword bits: FIND_DATA or FIND_EOP (43 R716). -/
abbrev InData (m : RxMode) : Prop := m = .findData ∨ m = .findEop

/-- The relations the receive rules keep between RX_MODE and the registers it drives (43 R710 to R720). -/
structure RxInv (s : State) : Prop where
  byteCount_le : s.rx.byteCount.toNat ≤ maxRxMsgLen
  bitCount_le : s.rx.bitCount.toNat ≤ codewordLen
  bitCount_pos : InData s.rx.mode → 1 ≤ s.rx.bitCount.toNat
  detData_lt : InData s.rx.mode → s.rx.detData.toNat < 2 ^ (codewordLen - s.rx.bitCount.toNat)
  counter_bitsync : s.rx.mode = .findBitsync → s.rx.modeCounter = 0
  counter_wordsync : s.rx.mode = .findWordsync → s.rx.modeCounter.toNat ≤ s.cfg.findWordsyncTimeout
  counter_data : InData s.rx.mode → s.rx.modeCounter.toNat ≤ s.cfg.findEopTimeout
  holdOff_le : s.rx.holdOff.toNat ≤ 2047
  holdOff_zero : s.rx.mode ≠ .eopHoldOff → s.rx.holdOff = 0
  findData_lt : s.rx.mode = .findData → s.rx.byteCount.toNat < findEopAfter
  findEop_ge : s.rx.mode = .findEop → findEopAfter ≤ s.rx.byteCount.toNat
  polarity_sync : s.rx.mode = .findBitsync ∨ s.rx.mode = .findWordsync → s.rx.polarity = false
  agcHold_iff : s.pll.agcHold = true ↔ s.rx.mode ≠ .findBitsync
  hold_not_due : ¬ (s.pll.phaseHold = true ∧ s.rx.bitDue = true)
  hold_or_due : s.rx.mode ≠ .findBitsync → s.pll.phaseHold = true ∨ s.rx.bitDue = true
  rxOutLen_le : s.validator.rxOutLen.toNat ≤ 34
  rxResult_le : s.validator.rxResult.toNat ≤ 2

/-- HYST_CNT between commands (10 R104, 42 R603). -/
abbrev SlicerInv (s : State) : Prop := s.sq.hystCnt.toNat ≤ s.cfg.thresholdT

/-- TXDATA holds a frame of TX_MSG_LEN bits with zeros behind it (46 R1002, R1011). -/
structure TxInv (t : Tx) : Prop where
  length_cases : t.txMsgLen = 0 ∨ ∃ n ≤ maxTxMsgLen, t.txMsgLen.toNat = 102 + 11 * n
  zero_fill : ∀ i, t.txMsgLen.toNat ≤ i → servedBit t i = false

/-- CRCTAB holds BuildTable's table (10 R109). -/
abbrev CrcInv (s : State) : Prop := s.crc.crcTab = buildTable

/-! ### Runs -/

/-- Commands executed one after the other (20 R213). -/
def execAll : List Instr → State → Host.Outcome State Fault Refusal
  | [], s => .next s
  | i :: rest, s =>
    match exec i s with
    | .next t => execAll rest t
    | .fault f => .fault f
    | .refused r => .refused r

/-- Bits fed to SampleBit one after the other (95 section 2.3). -/
def feedBits (seed : BitVec 11) (bits : List Bool) (s : State) : State :=
  bits.foldl (fun t b => sampleBit b seed t) s

/-- Values fed to Square one after the other. -/
def feedSquare (c : Config) (vs : List Int) (q : Squarer) : Squarer :=
  vs.foldl (fun r v => square c v r) q

/-- Samples fed to Track one after the other. -/
def feedTrack (c : Config) (xs : List Int) (p : Pll) : Pll :=
  xs.foldl (fun r x => (track c x r).1) p

/-! ### The bit stream of a frame -/

/-- The bits of a word or codeword, most significant first (20 R205). -/
def bitsOf {w : Nat} (v : BitVec w) : List Bool := (List.range w).map v.getMsbD

/-- The codewords of a byte list as bits (45 R901). -/
def codewordStream (c : Config) (bs : List Byte) : List Bool :=
  bs.flatMap fun b => bitsOf (c.precode b)

/-- The frame of a payload as a bit stream (46 R1000). -/
def frameStream (c : Config) (tab : Vector (BitVec 16) 256) (payload : List Byte) : List Bool :=
  c.txHeader.toList.flatMap bitsOf ++ codewordStream c payload ++
  codewordStream c (crcBytes (crcOf tab payload)) ++ c.txTrailer.toList.flatMap bitsOf

/-- The bits TX_NEXT_BIT serves of the frame in TXDATA, TX_BIT_NUM = 0 to TX_MSG_LEN − 1 (95 section 2.3). -/
def servedFrame (t : Tx) : List Bool := (List.range t.txMsgLen.toNat).map (servedBit t)

end Sys2Proof.Machine
end

