-- ==== Sys2Proof/Certificates/Slice0/Obligations.lean ====
section
/-! DEFINITION. The statements for the provers. Each docstring names the rules of spec/ it formalises; OBLIGATIONS.json
lists them. No statement rests on a value the model chose: every one holds for every configuration it admits. The port
fields cmdIn and responses in which the statements say what is issued and answered are the model's own (log entries 2
and 3), and so is the field cfg (log entry 1). A docstring that says `derived` names a sentence the spec marks as its own
inference, and the statement then formalises that inference. -/

open Sys2Proof Sys2Proof.Machine

/-! ### Encoding and decoding (30) -/

/-- Decoding the encoding of a command gives the command back, with every operand value (30 R301, R302, R304). -/
def Obligations.DecodeOfEncodeIsTheCommand : Prop :=
  ∀ i : Instr, i.wellFormed = true → decode (encode i) = .ok i

/-- A word that decodes is the encoding of what it decodes to: each command has one word (30 R303, R304). -/
def Obligations.EncodeOfDecodeIsTheWord : Prop :=
  ∀ (w : Word) (i : Instr), decode w = .ok i → encode i = w

/-- The words that are commands are exactly those that match a row of 30 R303 under its mask. -/
def Obligations.CommandWordsAreTheRowsOfTheOpcodeMap : Prop :=
  ∀ w : Word, (∃ i, decode w = .ok i) ↔
    (w = 0x00000000 ∨ w &&& 0xF8000000 = 0x08000000 ∨ w = 0x10000000 ∨ w = 0x18000000 ∨
     w = 0x20000000 ∨ w &&& 0xFF00FF00 = 0x28000000 ∨ w &&& 0xFF00FFFF = 0x30000000 ∨
     w = 0x38000000 ∨ w = 0x40000000 ∨ w = 0x48000000 ∨ w = 0x50000000 ∨
     w &&& 0xFFFFFF00 = 0x58000000 ∨ w &&& 0xFFFF0000 = 0x60000000)

/-- The worked encodings of 30 R310 (derived). -/
def Obligations.WorkedEncodingsDecode : Prop :=
  decode 0x0805FFFF = .ok (.sample 5 (-1)) ∧
  decode 0x0FFF1F40 = .ok (.sample 2047 8000) ∧
  decode 0x08008000 = .ok (.sample 0 (-32768)) ∧
  decode 0x28000042 = .ok (.txbufWr 0 0x42) ∧
  decode 0x30010000 = .ok (.txEncode 1) ∧
  decode 0x58000042 = .ok (.crcByte 0x42) ∧
  decode 0x60000400 = .ok (.read 0x0400) ∧
  decode 0x60000507 = .ok (.read 0x0507) ∧
  decode 0x00000001 = .error .reservedField ∧
  decode 0x68000000 = .error .reservedOpcode

/-! ### The command cycle (40, 70) -/

/-- A step takes the command word at the head of the port and runs the command it decodes to (40 R400); between
commands the state is held (60 R1210). -/
def Obligations.StepRunsTheDecodedCommand : Prop :=
  (∀ (s : State) (w : Word) (rest : List Word) (i : Instr),
    s.cmdIn = w :: rest → decode w = .ok i → step s = exec i { s with cmdIn := rest }) ∧
  (∀ s : State, s.cmdIn = [] → step s = .next s)

/-- Illegal encodings are rejected, not trapped: an OP of 0x0D to 0x1F, or a non-zero reserved field under an OP of
0x00 to 0x0C, sets ERR bit 0, changes nothing else, and is answered 0 (30 R305). -/
def Obligations.IllegalWordsAreRejected : Prop :=
  ∀ (s : State) (w : Word) (rest : List Word), s.cmdIn = w :: rest →
    (0x0D ≤ (w.extractLsb' 27 5).toNat ∨
     ∃ k : Opcode, opcodeOfOp (w.extractLsb' 27 5).toNat = some k ∧ w &&& maskOf k ≠ matchOf k) →
    step s = .next { s with cmdIn := rest, err := s.err ||| 0b0001, responses := s.responses ++ [0] }

/-- One command cycle per command word: it is taken, and exactly one response is returned (40 R400). -/
def Obligations.EveryCommandReturnsOneResponse : Prop :=
  ∀ (s : State) (w : Word) (rest : List Word), s.cmdIn = w :: rest →
    ∃ (t : State) (r : Word), step s = .next t ∧ t.cmdIn = rest ∧ t.responses = s.responses ++ [r]

/-- A run never faults, halts or gets stuck: from every state, the whole command sequence is executed, one response
for each word, behind the responses returned before (70 R1303). -/
def Obligations.RunAnswersEveryCommand : Prop :=
  ∀ s : State, ∃ (t : State) (rs : List Word),
    Host.Core.run Sys2Proof.core s.cmdIn.length s = .next t ∧ t.cmdIn = [] ∧
    rs.length = s.cmdIn.length ∧ t.responses = s.responses ++ rs

/-! ### Reset (70) -/

/-- Every register and array after hardware reset (70 R1300, R1301), for the configuration the block was built with. -/
def Obligations.HardwareResetValues : Prop :=
  State.reset.pll.phase = 0 ∧ State.reset.pll.cycle = 0 ∧ State.reset.pll.eta = 0 ∧
  State.reset.pll.proPhase = 0 ∧ State.reset.pll.intPhase = 0 ∧ State.reset.pll.phcos = 0 ∧
  State.reset.pll.phsin = 0 ∧ State.reset.pll.phaseErr = 0 ∧ State.reset.pll.corrIdx = 0 ∧
  State.reset.pll.corrC = List.replicate State.reset.cfg.corrWindow 0 ∧
  State.reset.pll.corrS = List.replicate State.reset.cfg.corrWindow 0 ∧
  State.reset.pll.gainIndex.toNat = State.reset.cfg.agcInitIndex ∧
  State.reset.pll.agcHold = false ∧ State.reset.pll.phaseHold = false ∧
  State.reset.sq = { detBit := false, hystCnt := 0, trans := false } ∧
  State.reset.rx =
    { mode := .findBitsync, detData := 0, polarity := false, byteCount := 0,
      bitCount := 0, modeCounter := 0, holdOff := 0, msgPending := false, bitDue := false,
      sinceTrans := 0, modeSnap := false, bitEvt := false, rxbuf := Vector.replicate 36 0 } ∧
  State.reset.validator =
    { rxout := Vector.replicate 36 0, rxOutLen := 0, rxValid := false, rxResult := 0 } ∧
  State.reset.tx =
    { txuser := Vector.replicate 32 0, txdata := Vector.replicate 29 0, txMsgLen := 0,
      txBitNum := 0, txMode := false, txBitPending := false, txBit := false } ∧
  State.reset.crc.crcTab = buildTable ∧ State.reset.crc.crcReg = 0 ∧
  State.reset.stat = Vector.replicate 9 0 ∧ State.reset.err = 0 ∧
  statusWord State.reset = 0

/-- The invariants hold after hardware reset: 10 R103 and 41 R516 (derived). That the configuration of State.reset is
well-formed is the model's choice of log entry 1: 93 I5 permits rejecting an ill-formed one and does not require it. -/
def Obligations.InvariantsHoldAtReset : Prop :=
  State.reset.cfg.WellFormed ∧ PllInv State.reset.cfg State.reset.pll ∧ RxInv State.reset ∧
  SlicerInv State.reset ∧ TxInv State.reset.tx ∧ CrcInv State.reset

/-! ### Invariants every command keeps -/

/-- The ranges and sums of the CarrierPLL registers are kept by every command: 10 R103 and 41 R516 (derived). -/
def Obligations.EveryStepKeepsThePllInvariant : Prop :=
  ∀ s t : State, s.cfg.RangesOk → PllInv s.cfg s.pll → step s = .next t → PllInv t.cfg t.pll

/-- The relations between RX_MODE and the receive registers are kept by every command (43 R710 to R720, 10 R106,
R107). The bound 34 on RX_OUT_LEN is the one of 20 R209 (log entry 7). -/
def Obligations.EveryStepKeepsTheReceiverInvariant : Prop :=
  ∀ s t : State, s.cfg.RangesOk → RxInv s → step s = .next t → RxInv t

/-- The slicer's counter, the zero fill behind the frame and the CRC table are kept by every command: 42 R603 and 46
R1002 (derived), 46 R1011, 10 R109. -/
def Obligations.EveryStepKeepsTheSlicerFrameAndCrcInvariants : Prop :=
  ∀ s t : State, SlicerInv s → TxInv s.tx → CrcInv s → step s = .next t →
    SlicerInv t ∧ TxInv t.tx ∧ CrcInv t

/-! ### CarrierPLL (41) -/

/-- Phase, cycle counter and bit wrap of one sample (41 R505, R506). -/
def Obligations.TrackAdvancesPhaseAndCycle : Prop :=
  ∀ (c : Config) (x : Int) (p : Pll) (n cyc : Nat), c.RangesOk →
    (n : Int) = ((p.phase.toNat : Int) + c.eta0 + p.eta.toInt) % ((c.sineLen * 1024 : Nat) : Int) →
    cyc = (p.cycle.toNat + 1) % c.cyclesPerBit →
    (track c x p).1.phase.toNat = n ∧ n < c.sineLen * 1024 ∧
    (if n ≤ p.phase.toNat then (track c x p).1.cycle.toNat = cyc ∧ ((track c x p).2 = true ↔ cyc = 0)
     else (track c x p).1.cycle = p.cycle ∧ (track c x p).2 = false)

/-- The AGC pre-scale: the gain index falls by AGC_OVF_DEC, floored at 0, past every index whose product does not
fit, and stops at the first that fits, or saturates at index 0 (41 R502, R503; the range is R504, derived). -/
def Obligations.AgcPrescaleLowersTheGainUntilItFits : Prop :=
  ∀ (c : Config) (x : Int) (p : Pll), c.agcEnable = true → 1 ≤ c.agcOvfDec →
    ∃ k : Nat,
      (agcPrescale c x p).2 = { p with gainIndex := BitVec.ofNat 8 (p.gainIndex.toNat - k * c.agcOvfDec) } ∧
      (∀ j < k, p.gainIndex.toNat - j * c.agcOvfDec ≠ 0 ∧
        ¬ Fits16 (x * ((c.gain (p.gainIndex.toNat - j * c.agcOvfDec)).toNat : Int) / 2 ^ c.gainShift)) ∧
      (∀ y : Int,
        y = x * ((c.gain (p.gainIndex.toNat - k * c.agcOvfDec)).toNat : Int) / 2 ^ c.gainShift →
        (Fits16 y ∧ (agcPrescale c x p).1 = y) ∨
        (¬ Fits16 y ∧ p.gainIndex.toNat - k * c.agcOvfDec = 0 ∧
          (agcPrescale c x p).1 = if y < 0 then -32768 else 32767)) ∧
      Fits16 (agcPrescale c x p).1

/-- Quadrature references, products and the sliding sums of one sample, exactly as integers (41 R508, R510; that the
products fit is R509, derived).
`a` is the result of step 1, so a.1 is the scaled sample xs. -/
def Obligations.TrackCorrelatesExactly : Prop :=
  ∀ (c : Config) (x : BitVec 16) (p p' : Pll) (a : Int × Pll) (idx k : Nat) (pc ps : Int),
    c.RangesOk → PllInv c p → a = agcPrescale c x.toInt p → p' = (track c x.toInt p).1 →
    k = p.corrIdx.toNat → idx = p'.phase.toNat / 1024 →
    pc = (c.sineTable.getD idx 0).toInt * a.1 →
    ps = (c.sineTable.getD ((idx + c.sineLen / 4) % c.sineLen) 0).toInt * a.1 →
    p'.phcos.toInt = p.phcos.toInt - (p.corrC.getD k 0).toInt + pc ∧
    p'.phsin.toInt = p.phsin.toInt - (p.corrS.getD k 0).toInt + ps ∧
    (∀ i < c.corrWindow, (p'.corrC.getD i 0).toInt = if i = k then pc else (p.corrC.getD i 0).toInt) ∧
    (∀ i < c.corrWindow, (p'.corrS.getD i 0).toInt = if i = k then ps else (p.corrS.getD i 0).toInt) ∧
    p'.corrIdx.toNat = (k + 1) % c.corrWindow

/-- Phase error and loop filter of one sample, exactly as integers: the filter is skipped while PHASE_HOLD = 1, and
no value is truncated by its register (41 R511, R512, R513). -/
def Obligations.TrackFiltersThePhaseErrorExactly : Prop :=
  ∀ (c : Config) (x : BitVec 16) (p p' : Pll), c.RangesOk → PllInv c p → p' = (track c x.toInt p).1 →
    p'.phaseErr.toInt = (if p'.phcos.toInt < 0 then -p'.phsin.toInt else p'.phsin.toInt) ∧
    (p.phaseHold = true → p'.proPhase = p.proPhase ∧ p'.intPhase = p.intPhase ∧ p'.eta = p.eta) ∧
    (p.phaseHold = false →
      p'.proPhase.toInt = p'.phaseErr.toInt * c.kp.toInt / 2 ^ c.kpShift ∧
      p'.intPhase.toInt = max (-(c.intLimit : Int))
        (min (c.intLimit : Int) (p.intPhase.toInt + p'.phaseErr.toInt * c.ki.toInt / 2 ^ c.kiShift)) ∧
      p'.eta.toInt = p'.proPhase.toInt + p'.intPhase.toInt) ∧
    p'.agcHold = p.agcHold ∧ p'.phaseHold = p.phaseHold

/-- AGC feedback of one sample: +1 below the threshold, −2 otherwise, from the index step 1 left; skipped while
AGC_HOLD = 1, and with the AGC disabled the index never moves and the sample passes through (41 R501, R514). -/
def Obligations.TrackFeedsTheGainBack : Prop :=
  ∀ (c : Config) (x : Int) (p p' : Pll) (g : Nat), c.RangesOk → p.gainIndex.toNat < c.gainLen →
    p' = (track c x p).1 → g = (agcPrescale c x p).2.gainIndex.toNat →
    (c.agcEnable = false → p'.gainIndex = p.gainIndex ∧ (agcPrescale c x p).1 = x) ∧
    (c.agcEnable = true → p.agcHold = true → p'.gainIndex.toNat = g) ∧
    (c.agcEnable = true → p.agcHold = false →
      p'.gainIndex.toNat =
        if (p'.phcos.toInt.natAbs : Int) < c.agcThreshold then min (g + 1) (c.gainLen - 1) else max g 2 - 2)

/-- A silent line empties the correlation window: after W zero samples, alone through Track or as W SAMPLE commands
with the whole receive chain of each, PHCOS and PHSIN are 0, and they stay 0 under every further zero SAMPLE, none of
which flips DET_BIT (42 R603, derived). -/
def Obligations.SilenceEmptiesTheCorrelationWindow : Prop :=
  (∀ (c : Config) (p : Pll), c.RangesOk → PllInv c p →
    (feedTrack c (List.replicate c.corrWindow 0) p).phcos = 0 ∧
    (feedTrack c (List.replicate c.corrWindow 0) p).phsin = 0) ∧
  (∀ (s : State) (seeds : List (BitVec 11)), s.cfg.RangesOk → PllInv s.cfg s.pll →
    s.cfg.corrWindow ≤ seeds.length →
    ∃ t : State, execAll (seeds.map fun seed => Instr.sample seed 0) s = .next t ∧
      t.pll.phcos = 0 ∧ t.pll.phsin = 0 ∧
      ∀ seed : BitVec 11, ∃ u : State, exec (.sample seed 0) t = .next u ∧
        u.pll.phcos = 0 ∧ u.pll.phsin = 0 ∧ u.sq.detBit = t.sq.detBit)

/-! ### BitSquarer (42) -/

/-- A transition fires on the (THRESHOLD_T + 1)-th consecutive sample past the threshold, and not before; one sample
that is not past the threshold restarts the count (42 R601). -/
def Obligations.SlicerFlipsAfterThresholdTSamples : Prop :=
  (∀ (c : Config) (q : Squarer) (vs : List Int), c.thresholdT ≤ 65534 → q.hystCnt = 0 → vs ≠ [] →
    (∀ v ∈ vs, if q.detBit then v < -(c.thresholdV : Int) else (c.thresholdV : Int) < v) →
    (vs.length ≤ c.thresholdT →
      feedSquare c vs q = { detBit := q.detBit, hystCnt := BitVec.ofNat 16 vs.length, trans := false }) ∧
    (vs.length = c.thresholdT + 1 →
      feedSquare c vs q = { detBit := !q.detBit, hystCnt := 0, trans := true })) ∧
  (∀ (c : Config) (v : Int) (q : Squarer),
    (if q.detBit then -(c.thresholdV : Int) ≤ v else v ≤ (c.thresholdV : Int)) →
    square c v q = { detBit := q.detBit, hystCnt := 0, trans := false })

/-- TRANS is 1 exactly after the SAMPLE on which DET_BIT flipped, and 0 after every other SAMPLE (42 R602, derived). -/
def Obligations.TransMarksTheFlip : Prop :=
  ∀ (seed : BitVec 11) (x : BitVec 16) (s t : State), exec (.sample seed x) s = .next t →
    (t.sq.trans = true ↔ t.sq.detBit ≠ s.sq.detBit)

/-! ### SAMPLE and the receiver (40, 43) -/

/-- SAMPLE runs Track, Square on the new PHCOS and then the receive step, from BIT_EVT = 0, and answers STATUS as it is
after them (40 R403, R410). It touches nothing outside the receive path and STAT: the PLL registers are those Track left
but for CYCLE, AGC_HOLD and PHASE_HOLD, or those of ResetToBitSync, and at most one RXBUF byte changes (20 R209). -/
def Obligations.SampleRunsTheReceiveChain : Prop :=
  ∀ (seed : BitVec 11) (x : BitVec 16) (s u : State) (p : Pll), p = (track s.cfg x.toInt s.pll).1 →
    u = rxStep (track s.cfg x.toInt s.pll).2 seed
      { s with pll := p, sq := square s.cfg p.phcos.toInt s.sq, rx := { s.rx with bitEvt := false } } →
    exec (.sample seed x) s = .next { u with responses := s.responses ++ [statusWord u] } ∧
    u.sq = square s.cfg p.phcos.toInt s.sq ∧
    (u.pll = pllToBitSync s.cfg ∨
      (u.pll = { p with cycle := u.pll.cycle, agcHold := u.pll.agcHold, phaseHold := u.pll.phaseHold } ∧
       (u.pll.cycle = p.cycle ∨ u.pll.cycle = 0))) ∧
    (∀ (i : Nat) (h : i < 36), i ≠ s.rx.byteCount.toNat → u.rx.rxbuf[i] = s.rx.rxbuf[i]) ∧
    u.cfg = s.cfg ∧ u.validator = s.validator ∧ u.tx = s.tx ∧ u.crc = s.crc ∧ u.err = s.err ∧
    u.cmdIn = s.cmdIn

/-- Outside FIND_BITSYNC and the hold-off, a bit wrap arms a sample and releases the loop filter; a due bit is
sampled when BIT_PHASE exceeds BIT_HOLD_PHASE (43 R711, R713). -/
def Obligations.BitWrapArmsTheSample : Prop :=
  ∀ (w : Bool) (seed : BitVec 11) (s : State) (due : Bool) (since : BitVec 16),
    s.rx.mode ≠ .findBitsync → s.rx.mode ≠ .eopHoldOff →
    due = (w || s.rx.bitDue) → since.toNat = min (s.rx.sinceTrans.toNat + 1) 65535 →
    (due = true ∧ bitPhase s.cfg s.pll > s.cfg.bitHoldPhase →
      rxStep w seed s = sampleBit s.sq.detBit seed
        { s with pll := { s.pll with phaseHold := true },
                 rx := { s.rx with bitDue := false, bitEvt := true, sinceTrans := since } }) ∧
    (¬ (due = true ∧ bitPhase s.cfg s.pll > s.cfg.bitHoldPhase) →
      rxStep w seed s =
        { s with pll := { s.pll with phaseHold := !w && s.pll.phaseHold },
                 rx := { s.rx with bitDue := due, sinceTrans := since } })

/-- A transition in FIND_BITSYNC: DET_DATA is discarded when the interval is outside the window (both bounds
accepted), the interval restarts, CYCLE is realigned, the hold is released and one sample is armed; it is taken in the
same SAMPLE exactly when the realigned BIT_PHASE is past BIT_HOLD_PHASE (43 R712, R713). -/
def Obligations.TransitionRealignsTheBitClock : Prop :=
  ∀ (w : Bool) (seed : BitVec 11) (s : State) (n : Nat) (d : BitVec 16),
    s.rx.mode = .findBitsync → s.sq.trans = true → n = min (s.rx.sinceTrans.toNat + 1) 65535 →
    d = (if n + s.cfg.bitTol < s.cfg.bitPeriodSamples ∨ s.cfg.bitPeriodSamples + s.cfg.bitTol < n
      then 0 else s.rx.detData) →
    (s.pll.phase.toNat / 1024 / 4 ≤ s.cfg.bitHoldPhase →
      rxStep w seed s =
        { s with pll := { s.pll with cycle := 0, phaseHold := false },
                 rx := { s.rx with detData := d, sinceTrans := 0, bitDue := true } }) ∧
    (s.cfg.bitHoldPhase < s.pll.phase.toNat / 1024 / 4 →
      rxStep w seed s = sampleBit s.sq.detBit seed
        { s with pll := { s.pll with cycle := 0, phaseHold := true },
                 rx := { s.rx with detData := d, sinceTrans := 0, bitDue := false, bitEvt := true } })

/-- Without a transition, FIND_BITSYNC samples only a bit that an earlier transition armed: a bit wrap arms none, it
only releases PHASE_HOLD (43 R711, R712, R713). -/
def Obligations.BitsyncSamplesOnlyArmedBits : Prop :=
  ∀ (w : Bool) (seed : BitVec 11) (s : State) (since : BitVec 16),
    s.rx.mode = .findBitsync → s.sq.trans = false →
    since.toNat = min (s.rx.sinceTrans.toNat + 1) 65535 →
    rxStep w seed s =
      if s.rx.bitDue = true ∧ bitPhase s.cfg s.pll > s.cfg.bitHoldPhase then
        sampleBit s.sq.detBit seed
          { s with pll := { s.pll with phaseHold := true },
                   rx := { s.rx with bitDue := false, bitEvt := true, sinceTrans := since } }
      else
        { s with pll := { s.pll with phaseHold := !w && s.pll.phaseHold },
                 rx := { s.rx with sinceTrans := since } }

/-- The receive step in EOP_HOLD_OFF, for every HOLD_OFF of the range of 10 R106. While HOLD_OFF − 1 > 0 it decrements
HOLD_OFF and does nothing else. Otherwise the sample runs ResetToBitSync and continues as FIND_BITSYNC with bitWrap
false: a transition arms one sample and restarts the interval, no transition leaves SINCE_TRANS = 1, no bit is sampled
(BIT_PHASE is 0), and MSG_PENDING, BYTE_COUNT, RXBUF, BIT_COUNT and STAT survive. So a hold-off of HOLD_OFF = h lasts
max(h, 1) SAMPLEs: until then only HOLD_OFF and BIT_EVT of the receive registers change, Track alone moves the PLL, and
AGC_HOLD and PHASE_HOLD stay; with the last of them the receiver is in FIND_BITSYNC again (43 R710, R712, R718,
R720). -/
def Obligations.HoldOffLastsItsSeed : Prop :=
  (∀ (w : Bool) (seed : BitVec 11) (s : State), s.rx.mode = .eopHoldOff → -1 ≤ s.rx.holdOff.toInt →
    (1 < s.rx.holdOff.toInt →
      rxStep w seed s = { s with rx := { s.rx with holdOff := s.rx.holdOff - 1 } }) ∧
    (s.rx.holdOff.toInt ≤ 1 → rxStep w seed s =
      { s with
        pll := { phase := 0, cycle := 0, eta := 0, proPhase := 0, intPhase := 0, phcos := 0, phsin := 0,
                 phaseErr := 0, corrC := List.replicate s.cfg.corrWindow 0,
                 corrS := List.replicate s.cfg.corrWindow 0, corrIdx := 0,
                 gainIndex := BitVec.ofNat 8 s.cfg.agcInitIndex, agcHold := false, phaseHold := false },
        rx := { s.rx with mode := .findBitsync, detData := 0, modeCounter := 0, holdOff := 0,
                          bitDue := s.sq.trans, sinceTrans := if s.sq.trans then 0 else 1,
                          polarity := false } })) ∧
  (∀ (xs : List (BitVec 11 × BitVec 16)) (s : State) (h : Nat),
    s.rx.mode = .eopHoldOff → h = s.rx.holdOff.toNat → h ≤ 2047 → xs.length ≤ max h 1 →
    ∃ t : State, execAll (xs.map fun p => Instr.sample p.1 p.2) s = .next t ∧
      (xs.length < max h 1 →
        t.rx = { s.rx with holdOff := BitVec.ofNat 16 (h - xs.length),
                           bitEvt := xs.isEmpty && s.rx.bitEvt } ∧
        t.pll = feedTrack s.cfg (xs.map fun p => p.2.toInt) s.pll ∧
        t.pll.agcHold = s.pll.agcHold ∧ t.pll.phaseHold = s.pll.phaseHold) ∧
      (xs.length = max h 1 →
        t.rx = { s.rx with mode := .findBitsync, detData := 0, modeCounter := 0, holdOff := 0,
                           bitDue := t.sq.trans, sinceTrans := if t.sq.trans then 0 else 1,
                           polarity := false, bitEvt := false } ∧
        t.pll = pllToBitSync s.cfg) ∧
      t.stat = s.stat ∧ t.cfg = s.cfg ∧ t.validator = s.validator ∧ t.tx = s.tx ∧ t.crc = s.crc ∧
      t.err = s.err ∧ t.cmdIn = s.cmdIn)

/-- SampleBit in FIND_BITSYNC: the shift and the bit-sync match (43 R714). -/
def Obligations.BitsyncPatternStartsWordsync : Prop :=
  ∀ (b : Bool) (seed : BitVec 11) (s : State) (d : BitVec 16), s.rx.mode = .findBitsync →
    d.toNat = (2 * s.rx.detData.toNat + b.toNat) % 2 ^ 16 →
    (d = 0xAAAA#16 → sampleBit b seed s =
      { s with
        rx := { s.rx with mode := .findWordsync, detData := 0, modeCounter := 0, modeSnap := s.tx.txMode },
        pll := { s.pll with agcHold := true },
        stat := s.stat.set 0 (s.stat[0] + 1) }) ∧
    (d ≠ 0xAAAA#16 → sampleBit b seed s = { s with rx := { s.rx with detData := d } })

/-- SampleBit in FIND_WORDSYNC: the match in both polarities comes before the timeout (43 R715). -/
def Obligations.WordsyncPatternOrTimeout : Prop :=
  ∀ (b : Bool) (seed : BitVec 11) (s : State) (d n : BitVec 16), s.rx.mode = .findWordsync →
    d.toNat = (2 * s.rx.detData.toNat + b.toNat) % 2 ^ 16 → n = s.rx.modeCounter + 1 →
    (d = 0x567B#16 ∨ d = 0xA984#16 → sampleBit b seed s =
      { s with
        rx := { s.rx with polarity := decide (d = 0xA984#16), mode := .findData, byteCount := 0,
                          bitCount := 11, detData := 0, modeCounter := 0 },
        stat := s.stat.set 1 (s.stat[1] + 1) }) ∧
    (d ≠ 0x567B#16 → d ≠ 0xA984#16 → s.cfg.findWordsyncTimeout < n.toNat → sampleBit b seed s =
      { s with
        pll := pllToBitSync s.cfg,
        rx := { s.rx with mode := .findBitsync, detData := 0, modeCounter := 0, holdOff := 0,
                          bitDue := false, sinceTrans := 0, polarity := false },
        stat := s.stat.set 2 (s.stat[2] + 1) }) ∧
    (d ≠ 0x567B#16 → d ≠ 0xA984#16 → n.toNat ≤ s.cfg.findWordsyncTimeout → sampleBit b seed s =
      { s with rx := { s.rx with detData := d, modeCounter := n } })

/-- Eleven sampled bits in FIND_DATA or FIND_EOP make one codeword, corrected for polarity (43 R716): the bits of a
codeword w, complemented when POLARITY = 1, end in CodewordDone with DET_DATA = w. -/
def Obligations.ElevenBitsMakeACodeword : Prop :=
  ∀ (seed : BitVec 11) (s : State) (w : BitVec 11), InData s.rx.mode →
    s.rx.bitCount = 11 → s.rx.detData = 0 →
    feedBits seed ((bitsOf w).map (s.rx.polarity ^^ ·)) s =
      codewordDone seed { s with rx := { s.rx with
        detData := w.setWidth 16, bitCount := 0, modeCounter := s.rx.modeCounter + 1 } }

/-- A completed codeword w: the EOP timeout, the message too long, the EOP, in this order (43 R717 (a) to (c)). -/
def Obligations.CodewordEndsTheMessage : Prop :=
  ∀ (seed : BitVec 11) (s : State),
    (s.cfg.findEopTimeout < s.rx.modeCounter.toNat → codewordDone seed s =
      { s with
        pll := pllToBitSync s.cfg,
        rx := { s.rx with mode := .findBitsync, detData := 0, modeCounter := 0, holdOff := 0,
                          bitDue := false, sinceTrans := 0, polarity := false },
        stat := s.stat.set 4 (s.stat[4] + 1) }) ∧
    (s.rx.modeCounter.toNat ≤ s.cfg.findEopTimeout → 36 ≤ s.rx.byteCount.toNat → codewordDone seed s =
      { s with
        pll := pllToBitSync s.cfg,
        rx := { s.rx with mode := .findBitsync, detData := 0, modeCounter := 0, holdOff := 0,
                          bitDue := false, sinceTrans := 0, polarity := false },
        stat := s.stat.set 5 (s.stat[5] + 1) }) ∧
    (s.rx.modeCounter.toNat ≤ s.cfg.findEopTimeout → s.rx.byteCount.toNat < 36 →
      s.rx.detData = 0x0733#16 → codewordDone seed s =
      { s with
        rx := { s.rx with msgPending := true, mode := .eopHoldOff, holdOff := seed.setWidth 16 },
        stat := s.stat.set 3 (s.stat[3] + 1) })

/-- A completed codeword that ends nothing is stored: its bits 10:3 go to RXBUF[BYTE_COUNT]; in FIND_DATA a parity
mismatch is only counted, and the 34th byte enters FIND_EOP (43 R717 (d), R719, R723). -/
def Obligations.CodewordIsStored : Prop :=
  ∀ (seed : BitVec 11) (s : State) (byte : Byte) (h : s.rx.byteCount.toNat < 36),
    s.rx.modeCounter.toNat ≤ s.cfg.findEopTimeout → s.rx.detData ≠ 0x0733#16 →
    byte = s.rx.detData.extractLsb' 3 8 →
    codewordDone seed s =
      { s with
        rx := { s.rx with
          rxbuf := s.rx.rxbuf.set s.rx.byteCount.toNat byte,
          byteCount := s.rx.byteCount + 1,
          mode := if s.rx.mode = .findData ∧ s.rx.byteCount = 33 then .findEop else s.rx.mode,
          bitCount := 11, detData := 0 },
        stat := if s.rx.mode = .findData ∧
            s.cfg.precodeTable[byte.toNat]'byte.isLt ≠ s.rx.detData.extractLsb' 0 11
          then s.stat.set 6 (s.stat[6] + 1) else s.stat }

/-- A FIND_WORDSYNC that never sees a matching pattern returns to FIND_BITSYNC on the (FIND_WORDSYNC_TIMEOUT + 1)-th
sampled bit, not before and not after, and WORDSYNC_TIMEOUT is counted once (43 R722, derived). -/
def Obligations.WordsyncTimeoutBoundary : Prop :=
  ∀ (seed : BitVec 11) (s : State) (bits : List Bool), s.cfg.findWordsyncTimeout ≤ 65534 →
    s.rx.mode = .findWordsync → s.rx.modeCounter = 0 →
    bits.length = s.cfg.findWordsyncTimeout + 1 →
    (∀ k ≤ bits.length, 1 ≤ k →
      (bits.take k).foldl shiftIn s.rx.detData ≠ 0x567B#16 ∧
      (bits.take k).foldl shiftIn s.rx.detData ≠ 0xA984#16) →
    (∀ k < bits.length, (feedBits seed (bits.take k) s).rx.mode = .findWordsync ∧
      (feedBits seed (bits.take k) s).rx.modeCounter.toNat = k ∧
      (feedBits seed (bits.take k) s).stat = s.stat) ∧
    (feedBits seed bits s).rx.mode = .findBitsync ∧
    (feedBits seed bits s).stat = s.stat.set 2 (s.stat[2] + 1)

/-- Codewords without an EOP after a word sync: with FIND_EOP_TIMEOUT ≤ 36 the EOP timeout fires on codeword
FIND_EOP_TIMEOUT + 1, and from 37 on the message is too long on the 37th codeword, not before (43 R722,
derived). -/
def Obligations.EopTimeoutBoundary : Prop :=
  ∀ (seed : BitVec 11) (s : State) (ws : List (BitVec 11)) (last : Nat),
    s.rx.mode = .findData → s.rx.modeCounter = 0 → s.rx.byteCount = 0 → s.rx.bitCount = 11 →
    s.rx.detData = 0 → last = min s.cfg.findEopTimeout 36 + 1 → ws.length = last →
    (∀ w ∈ ws, w ≠ 0x733#11) →
    (∀ k < last, InData (feedBits seed
        ((ws.take k).flatMap fun w => (bitsOf w).map (s.rx.polarity ^^ ·)) s).rx.mode ∧
      (feedBits seed ((ws.take k).flatMap fun w => (bitsOf w).map (s.rx.polarity ^^ ·)) s).rx.byteCount.toNat
        = k) ∧
    (∀ t : State, t = feedBits seed (ws.flatMap fun w => (bitsOf w).map (s.rx.polarity ^^ ·)) s →
      t.rx.mode = .findBitsync ∧
      (s.cfg.findEopTimeout ≤ 36 → t.stat[4] = s.stat[4] + 1 ∧ t.stat[5] = s.stat[5]) ∧
      (37 ≤ s.cfg.findEopTimeout → t.stat[4] = s.stat[4] ∧ t.stat[5] = s.stat[5] + 1))

/-- RX_RESET runs ResetToBitSync and leaves a pending message and everything outside the receive path as it was
(43 R720, R721). -/
def Obligations.RxResetReturnsToBitsync : Prop :=
  (∀ s : State, exec .rxReset s = .next
    { s with
      pll := { phase := 0, cycle := 0, eta := 0, proPhase := 0, intPhase := 0, phcos := 0, phsin := 0,
               phaseErr := 0, corrC := List.replicate s.cfg.corrWindow 0,
               corrS := List.replicate s.cfg.corrWindow 0, corrIdx := 0,
               gainIndex := BitVec.ofNat 8 s.cfg.agcInitIndex, agcHold := false, phaseHold := false },
      rx := { s.rx with mode := .findBitsync, detData := 0, modeCounter := 0, holdOff := 0,
                        bitDue := false, sinceTrans := 0, polarity := false },
      responses := s.responses ++ [0] }) ∧
  (∀ (s : State) (w : Word) (rest : List Word), s.cmdIn = w :: rest →
    w.extractLsb' 27 5 = 0x02#5 → w ≠ 0x10000000 →
    step s = .next { s with cmdIn := rest, err := s.err ||| 0b0001, responses := s.responses ++ [0] })

/-! ### Validator (44) -/

/-- RX_VALIDATE with no message pending: RX_RESULT <- 0 and nothing else; the response has RX_OUT_LEN (44 R801). -/
def Obligations.ValidateWithNothingPending : Prop :=
  ∀ s : State, s.rx.msgPending = false → exec .rxValidate s = .next
    { s with validator := { s.validator with rxResult := 0 },
             responses := s.responses ++ [s.validator.rxOutLen.setWidth 32 <<< 8] }

/-- RX_VALIDATE of a message whose first good trial strips k bytes: the payload of p bytes is copied, the rest of
RXOUT keeps its contents, RX_GOOD is counted and the message is consumed (44 R801). -/
def Obligations.ValidateAcceptsTheFirstGoodTrial : Prop :=
  ∀ (s : State) (k p : Nat), s.rx.msgPending = true → k ≤ 2 → s.rx.byteCount.toNat ≤ 36 →
    s.rx.byteCount.toNat = p + 2 + k →
    crcOf s.crc.crcTab (s.rx.rxbuf.toList.take p) = s.rx.rxbuf[p]?.getD 0 ++ s.rx.rxbuf[p + 1]?.getD 0 →
    (∀ j < k, crcOf s.crc.crcTab (s.rx.rxbuf.toList.take (p + k - j)) ≠
      s.rx.rxbuf[p + k - j]?.getD 0 ++ s.rx.rxbuf[p + k - j + 1]?.getD 0) →
    ∃ t : State, exec .rxValidate s = .next t ∧
      t.validator.rxResult = 1 ∧ t.validator.rxOutLen.toNat = p ∧ t.validator.rxValid = true ∧
      (∀ (i : Nat) (h : i < 36), t.validator.rxout[i] =
        if i < p then s.rx.rxbuf[i] else s.validator.rxout[i]) ∧
      t.stat = s.stat.set 7 (s.stat[7] + 1) ∧ t.rx = { s.rx with msgPending := false } ∧
      t.responses = s.responses ++ [BitVec.ofNat 32 (256 * p + 1)] ∧
      t.cfg = s.cfg ∧ t.pll = s.pll ∧ t.sq = s.sq ∧ t.tx = s.tx ∧ t.crc = s.crc ∧ t.err = s.err ∧
      t.cmdIn = s.cmdIn

/-- RX_VALIDATE of a message no trial accepts: RX_RESULT <- 2, RX_ERR_CRC is counted, the message is dropped and the
earlier payload kept (44 R801). -/
def Obligations.ValidateDropsACorruptedMessage : Prop :=
  ∀ s : State, s.rx.msgPending = true →
    (∀ m : Nat, 2 ≤ m → m ≤ s.rx.byteCount.toNat → s.rx.byteCount.toNat ≤ m + 2 →
      crcOf s.crc.crcTab (s.rx.rxbuf.toList.take (m - 2)) ≠
        s.rx.rxbuf[m - 2]?.getD 0 ++ s.rx.rxbuf[m - 1]?.getD 0) →
    exec .rxValidate s = .next
      { s with
        validator := { s.validator with rxResult := 2 },
        rx := { s.rx with msgPending := false },
        stat := s.stat.set 8 (s.stat[8] + 1),
        responses := s.responses ++ [2 ||| s.validator.rxOutLen.setWidth 32 <<< 8] }

/-- RX_ACK clears RX_VALID and nothing else (44 R802). -/
def Obligations.RxAckClearsRxValid : Prop :=
  (∀ s : State, exec .rxAck s = .next
    { s with validator := { s.validator with rxValid := false }, responses := s.responses ++ [0] }) ∧
  (∀ (s : State) (w : Word) (rest : List Word), s.cmdIn = w :: rest →
    w.extractLsb' 27 5 = 0x04#5 → w ≠ 0x20000000 →
    step s = .next { s with cmdIn := rest, err := s.err ||| 0b0001, responses := s.responses ++ [0] })

/-- A codeword of the table is never flagged by the parity check, and a received 11-bit word is flagged exactly when
its three low bits differ from the table's for its byte (45 R903, derived). -/
def Obligations.ParityCheckIsSelfConsistent : Prop :=
  ∀ c : Config, c.PrecodeOk →
    (∀ v : Byte, parityMismatch c ((c.precode v).setWidth 16) = false) ∧
    (∀ w : BitVec 11, parityMismatch c (w.setWidth 16) = true ↔
      w.extractLsb' 0 3 ≠ (c.precode (w.extractLsb' 3 8)).extractLsb' 0 3)

/-- The framing round trip: a payload of n bytes encoded by TX_ENCODE, its served bits fed to the receiver upright or
inverted, is stored with its CRC, found pending, and validated as the payload, with no parity error and no CRC error
counted (44 R804, derived). -/
def Obligations.FramingRoundTrip : Prop :=
  ∀ (s s1 : State) (seed : BitVec 11) (len : BitVec 8) (n : Nat) (inverted : Bool),
    s.cfg.WellFormed →
    s.cfg.txHeader = #v[0xAAAA, 0xAAAA, 0x567B] → s.cfg.txTrailer = #v[0xE67C, 0xCC00] →
    n = len.toNat → n ≤ 32 → 32 ≤ s.cfg.findWordsyncTimeout → n + 3 ≤ s.cfg.findEopTimeout →
    s.rx.mode = .findBitsync → s.rx.detData = 0 →
    exec (.txEncode len) s = .next s1 →
    ∀ t : State, t = feedBits seed ((servedFrame s1.tx).map (inverted ^^ ·)) s1 →
      t.rx.mode = .eopHoldOff ∧ t.rx.msgPending = true ∧ t.rx.polarity = inverted ∧
      t.rx.byteCount.toNat = n + 2 ∧ t.rx.holdOff = seed.setWidth 16 ∧ t.stat[6] = s.stat[6] ∧
      ∃ u : State, exec .rxValidate t = .next u ∧ u.validator.rxResult = 1 ∧
        u.validator.rxOutLen.toNat = n ∧
        (∀ (i : Nat) (h : i < 32), i < n →
          u.validator.rxout[i]'(Nat.lt_trans h (by decide)) = s.tx.txuser[i]) ∧
        u.stat[7] = s.stat[7] + 1 ∧ u.stat[8] = s.stat[8]

/-! ### TransmitFramer (46) -/

/-- TXBUF_WR writes one byte of TXUSER and nothing else, is rejected with ERR_IDX past index 31, and with ERR_CMD on a
non-zero reserved bit (46 R1010). -/
def Obligations.TxbufWrWritesOneByte : Prop :=
  (∀ (s : State) (idx byte : BitVec 8) (h : idx.toNat < 32), exec (.txbufWr idx byte) s = .next
    { s with tx := { s.tx with txuser := s.tx.txuser.set idx.toNat byte },
             responses := s.responses ++ [0] }) ∧
  (∀ (s : State) (idx byte : BitVec 8), 31 < idx.toNat → exec (.txbufWr idx byte) s = .next
    { s with err := s.err ||| 0b0100, responses := s.responses ++ [0] }) ∧
  (∀ (s : State) (w : Word) (rest : List Word), s.cmdIn = w :: rest →
    w.extractLsb' 27 5 = 0x05#5 → w &&& 0xFF00FF00 ≠ 0x28000000 →
    step s = .next { s with cmdIn := rest, err := s.err ||| 0b0001, responses := s.responses ++ [0] })

/-- TX_ENCODE of a legal length: TX_MSG_LEN = 102 + 11·LEN is set and answered, the cursor restarts, the modem is in
transmit mode, and nothing else but TXDATA changes; LEN > 32 is rejected with ERR_LEN (46 R1011; the length is R1002,
derived). -/
def Obligations.TxEncodeSetsLengthAndCursor : Prop :=
  (∀ (s : State) (len : BitVec 8), len.toNat ≤ 32 →
    ∃ t : State, exec (.txEncode len) s = .next t ∧
      t.tx = { s.tx with txdata := t.tx.txdata, txMsgLen := BitVec.ofNat 16 (102 + 11 * len.toNat),
                         txMode := true, txBitNum := 0, txBitPending := false } ∧
      t.responses = s.responses ++ [BitVec.ofNat 32 (102 + 11 * len.toNat)] ∧
      t.cfg = s.cfg ∧ t.pll = s.pll ∧ t.sq = s.sq ∧ t.rx = s.rx ∧ t.validator = s.validator ∧
      t.crc = s.crc ∧ t.stat = s.stat ∧ t.err = s.err ∧ t.cmdIn = s.cmdIn) ∧
  (∀ (s : State) (len : BitVec 8), 32 < len.toNat → exec (.txEncode len) s = .next
    { s with err := s.err ||| 0b0010, responses := s.responses ++ [0] })

/-- After TX_ENCODE, TXDATA holds the frame's bit stream: stream bit k at TXDATA[k >> 4] bit 15 − (k mod 16), header,
payload codewords, CRC codewords, trailer, and zeros behind it (46 R1000, R1001, 20 R204 to R206). -/
def Obligations.TxdataHoldsTheFrameStream : Prop :=
  ∀ (s t : State) (len : BitVec 8) (k : Nat) (h : k / 16 < 29), len.toNat ≤ 32 →
    exec (.txEncode len) s = .next t →
    t.tx.txdata[k / 16].getLsbD (15 - k % 16) =
      (frameStream s.cfg s.crc.crcTab (s.tx.txuser.toList.take len.toNat)).getD k false

/-- TX_NEXT_BIT serves the bit at the cursor, 0 past word 28, moves the cursor with saturation at 65535, and answers
the bit and TX_DONE; a non-zero reserved bit is rejected with ERR_CMD (46 R1012). -/
def Obligations.TxNextBitServesTheCursor : Prop :=
  (∀ (s : State) (i : Nat) (b done : Bool), i = s.tx.txBitNum.toNat →
    (i / 16 < 29 → b = (s.tx.txdata[i / 16]?.getD 0).getLsbD (15 - i % 16)) → (29 ≤ i / 16 → b = false) →
    done = decide (s.tx.txMsgLen.toNat < min (i + 1) 65535) →
    exec .txNextBit s = .next
      { s with tx := { s.tx with txBitNum := BitVec.ofNat 16 (min (i + 1) 65535), txBit := b,
                                 txBitPending := true },
               responses := s.responses ++ [BitVec.ofNat 32 (b.toNat + 2 * done.toNat)] }) ∧
  (∀ (s : State) (w : Word) (rest : List Word), s.cmdIn = w :: rest →
    w.extractLsb' 27 5 = 0x07#5 → w ≠ 0x38000000 →
    step s = .next { s with cmdIn := rest, err := s.err ||| 0b0001, responses := s.responses ++ [0] })

/-- A whole transmission: the (k+1)-th TX_NEXT_BIT after TX_ENCODE serves stream bit k, 0 past the frame's end, and
TX_DONE is 1 exactly once the cursor exceeds TX_MSG_LEN (46 R1011, R1012; R1015, derived). -/
def Obligations.TransmissionServesTheFrame : Prop :=
  ∀ (s : State) (len : BitVec 8) (k : Nat) (b done : Bool), len.toNat ≤ 32 →
    b = (frameStream s.cfg s.crc.crcTab (s.tx.txuser.toList.take len.toNat)).getD k false →
    done = decide (102 + 11 * len.toNat < k + 1) →
    ∃ t : State, execAll (.txEncode len :: List.replicate (k + 1) .txNextBit) s = .next t ∧
      t.tx.txBitNum.toNat = min (k + 1) 65535 ∧ t.tx.txBit = b ∧ t.tx.txBitPending = true ∧
      txDone t.tx = done ∧ t.responses.getLast? = some (BitVec.ofNat 32 (b.toNat + 2 * done.toNat))

/-- TX_ACK_BIT clears TX_BIT_PENDING and nothing else; TX_SET_RX clears TX_MODE and nothing else (46 R1013,
R1014). -/
def Obligations.TxAckBitAndTxSetRxClearTheirFlags : Prop :=
  (∀ s : State, exec .txAckBit s = .next
    { s with tx := { s.tx with txBitPending := false }, responses := s.responses ++ [0] }) ∧
  (∀ s : State, exec .txSetRx s = .next
    { s with tx := { s.tx with txMode := false }, responses := s.responses ++ [0] }) ∧
  (∀ (s : State) (w : Word) (rest : List Word), s.cmdIn = w :: rest →
    (w.extractLsb' 27 5 = 0x08#5 ∧ w ≠ 0x40000000) ∨ (w.extractLsb' 27 5 = 0x09#5 ∧ w ≠ 0x48000000) →
    step s = .next { s with cmdIn := rest, err := s.err ||| 0b0001, responses := s.responses ++ [0] })

/-! ### CRCEngine (47) -/

/-- CRC_INIT sets CRC_REG to 0xFFFF and nothing else (47 R1104). -/
def Obligations.CrcInitSeedsTheRegister : Prop :=
  (∀ s : State, exec .crcInit s = .next
    { s with crc := { s.crc with crcReg := 0xFFFF#16 }, responses := s.responses ++ [0x0000FFFF] }) ∧
  (∀ (s : State) (w : Word) (rest : List Word), s.cmdIn = w :: rest →
    w.extractLsb' 27 5 = 0x0A#5 → w ≠ 0x50000000 →
    step s = .next { s with cmdIn := rest, err := s.err ||| 0b0001, responses := s.responses ++ [0] })

/-- CRC_BYTE: reg <- (reg << 8) ^ table[reg >> 8] ^ byte, answered (47 R1102, R1105). -/
def Obligations.CrcByteStepsTheRegister : Prop :=
  ∀ (s : State) (byte : Byte) (v : BitVec 16),
    v = (s.crc.crcReg <<< 8) ^^^ (s.crc.crcTab[s.crc.crcReg.toNat / 256]?.getD 0) ^^^ byte.setWidth 16 →
    exec (.crcByte byte) s = .next
      { s with crc := { s.crc with crcReg := v }, responses := s.responses ++ [v.setWidth 32] }

/-- CRC_INIT followed by CRC_BYTE b0 … b(n−1) leaves CRC_REG = CRC(b0 … b(n−1)) and everything but CRC_REG and the
responses as it was (47 R1105). -/
def Obligations.CrcCommandsComputeTheCrc : Prop :=
  ∀ (s : State) (bytes : List Byte), ∃ t : State,
    execAll (.crcInit :: bytes.map Instr.crcByte) s = .next t ∧
    t.crc.crcReg = crcOf s.crc.crcTab bytes ∧ t.responses.length = s.responses.length + bytes.length + 1 ∧
    t = { s with crc := { s.crc with crcReg := t.crc.crcReg }, responses := t.responses }

/-- CRCTAB[i] is the remainder of i·x^16 divided by x^16 + x^12 + x^5 + 1 over GF(2): i·x^16 is a multiple of the
polynomial plus CRCTAB[i] (47 R1101, the loop's value from general knowledge in the spec). -/
def Obligations.CrcTableHoldsTheRemainders : Prop :=
  ∀ i : Fin 256, ∃ q : BitVec 8,
    BitVec.ofNat 24 i.val <<< 16 =
      (List.range 8).foldl (fun a k => if q.getLsbD k then a ^^^ (0x011021#24 <<< k) else a) 0#24 ^^^
      (buildTable[i]).setWidth 24

/-- Two byte sequences that differ in exactly one byte have different CRCs (derived from 47 R1101 to R1103; the
spec does not state it). -/
def Obligations.CrcDetectsASingleByteError : Prop :=
  ∀ (pre post : List Byte) (a b : Byte), a ≠ b →
    crcOf buildTable (pre ++ a :: post) ≠ crcOf buildTable (pre ++ b :: post)

/-! ### READ (20, 40) -/

/-- READ returns the value of a mapped address without a side effect, an unmapped address is rejected with ERR_ADDR, and
a non-zero reserved bit with ERR_CMD (40 R405, 20 R203, R210). Which addresses are mapped: `ReadMapIsTheTable`. -/
def Obligations.ReadAnswersTheReadMap : Prop :=
  (∀ (s : State) (addr : BitVec 16) (v : Word), readMap s addr.toNat = some v →
    exec (.read addr) s = .next { s with responses := s.responses ++ [v] }) ∧
  (∀ (s : State) (addr : BitVec 16), readMap s addr.toNat = none →
    exec (.read addr) s = .next { s with err := s.err ||| 0b1000, responses := s.responses ++ [0] }) ∧
  (∀ (s : State) (w : Word) (rest : List Word), s.cmdIn = w :: rest →
    w.extractLsb' 27 5 = 0x0C#5 → w &&& 0xFFFF0000 ≠ 0x60000000 →
    step s = .next { s with cmdIn := rest, err := s.err ||| 0b0001, responses := s.responses ++ [0] })

/-- The READ map: the array rows, the register rows, and no other address (20 R202, R203, R207). -/
def Obligations.ReadMapIsTheTable : Prop :=
  ∀ s : State, s.cfg.corrWindow ≤ 255 →
    (∀ (i : Nat) (h : i < 36), readMap s (0x0000 + i) = some (s.rx.rxbuf[i].setWidth 32)) ∧
    (∀ (i : Nat) (h : i < 36), readMap s (0x0040 + i) = some (s.validator.rxout[i].setWidth 32)) ∧
    (∀ (i : Nat) (h : i < 32), readMap s (0x0080 + i) = some (s.tx.txuser[i].setWidth 32)) ∧
    (∀ (i : Nat) (h : i < 29), readMap s (0x00C0 + i) = some (s.tx.txdata[i].setWidth 32)) ∧
    (∀ (i : Nat) (h : i < 256), readMap s (0x0100 + i) = some (s.crc.crcTab[i].setWidth 32)) ∧
    (∀ i < s.cfg.corrWindow, readMap s (0x0200 + i) = some (s.pll.corrC.getD i 0)) ∧
    (∀ i < s.cfg.corrWindow, readMap s (0x0300 + i) = some (s.pll.corrS.getD i 0)) ∧
    (∀ (i : Nat) (h : i < 9), readMap s (0x0500 + i) = some s.stat[i]) ∧
    readMap s 0x0400 = some (statusWord s) ∧
    readMap s 0x0401 = some ((rxModeCode s.rx.mode).setWidth 32) ∧
    readMap s 0x0402 = some (s.rx.detData.setWidth 32) ∧
    readMap s 0x0403 = some (s.rx.byteCount.setWidth 32) ∧
    readMap s 0x0404 = some (s.rx.bitCount.setWidth 32) ∧
    readMap s 0x0405 = some (s.rx.modeCounter.setWidth 32) ∧
    readMap s 0x0406 = some (s.rx.holdOff.signExtend 32) ∧
    readMap s 0x0407 = some (s.rx.sinceTrans.setWidth 32) ∧
    readMap s 0x0408 = some (s.sq.hystCnt.setWidth 32) ∧
    readMap s 0x0409 = some (s.validator.rxOutLen.setWidth 32) ∧
    readMap s 0x040A = some (s.validator.rxResult.setWidth 32) ∧
    readMap s 0x040B = some (s.err.setWidth 32) ∧
    readMap s 0x0410 = some s.pll.phase ∧
    readMap s 0x0411 = some (s.pll.cycle.setWidth 32) ∧
    readMap s 0x0412 = some (BitVec.ofNat 32
      (s.pll.cycle.toNat * (s.cfg.sineLen / 4) + s.pll.phase.toNat / 1024 / 4)) ∧
    readMap s 0x0413 = some (s.pll.gainIndex.setWidth 32) ∧
    readMap s 0x0414 = some (s.pll.corrIdx.setWidth 32) ∧
    readMap s 0x0415 = some s.pll.intPhase ∧
    readMap s 0x0416 = some (s.pll.eta.extractLsb' 0 32) ∧
    readMap s 0x0417 = some (s.pll.eta.extractLsb' 32 32) ∧
    readMap s 0x0418 = some (s.pll.proPhase.extractLsb' 0 32) ∧
    readMap s 0x0419 = some (s.pll.proPhase.extractLsb' 32 32) ∧
    readMap s 0x041A = some (s.pll.phcos.extractLsb' 0 32) ∧
    readMap s 0x041B = some ((s.pll.phcos.extractLsb' 32 16).signExtend 32) ∧
    readMap s 0x041C = some (s.pll.phsin.extractLsb' 0 32) ∧
    readMap s 0x041D = some ((s.pll.phsin.extractLsb' 32 16).signExtend 32) ∧
    readMap s 0x041E = some (s.pll.phaseErr.extractLsb' 0 32) ∧
    readMap s 0x041F = some ((s.pll.phaseErr.extractLsb' 32 16).signExtend 32) ∧
    readMap s 0x0420 = some (s.tx.txMsgLen.setWidth 32) ∧
    readMap s 0x0421 = some (s.tx.txBitNum.setWidth 32) ∧
    readMap s 0x0422 = some (s.crc.crcReg.setWidth 32) ∧
    readMap s 0x0423 = some ((s.cfg.gainTable.getD s.pll.gainIndex.toNat 0).setWidth 32) ∧
    (∀ a : Nat, readMap s a ≠ none ↔
      (a < 36 ∨ (0x0040 ≤ a ∧ a < 0x0040 + 36) ∨ (0x0080 ≤ a ∧ a < 0x0080 + 32) ∨
       (0x00C0 ≤ a ∧ a < 0x00C0 + 29) ∨ (0x0100 ≤ a ∧ a < 0x0100 + 256) ∨
       (0x0200 ≤ a ∧ a < 0x0200 + s.cfg.corrWindow) ∨ (0x0300 ≤ a ∧ a < 0x0300 + s.cfg.corrWindow) ∨
       (0x0400 ≤ a ∧ a ≤ 0x040B) ∨ (0x0410 ≤ a ∧ a ≤ 0x0423) ∨ (0x0500 ≤ a ∧ a < 0x0500 + 9)))

/-- STATUS is read at address 0x0400 (for every correlation window the spec admits, so that no window
row reaches that address), and its bits are these (10 R112). -/
def Obligations.StatusWordBits : Prop :=
  ∀ s : State, (s.cfg.corrWindow ≤ 255 → readMap s 0x0400 = some (statusWord s)) ∧
    (statusWord s).getLsbD 0 = s.sq.detBit ∧ (statusWord s).getLsbD 1 = s.sq.trans ∧
    (statusWord s).getLsbD 2 = s.rx.msgPending ∧ (statusWord s).getLsbD 3 = s.validator.rxValid ∧
    (statusWord s).getLsbD 4 = s.rx.polarity ∧ (statusWord s).getLsbD 5 = s.pll.agcHold ∧
    (statusWord s).getLsbD 6 = s.pll.phaseHold ∧ (statusWord s).getLsbD 7 = s.rx.bitDue ∧
    (statusWord s).getLsbD 8 = s.rx.modeSnap ∧ (statusWord s).getLsbD 9 = s.tx.txMode ∧
    (statusWord s).getLsbD 10 = s.tx.txBitPending ∧ (statusWord s).getLsbD 11 = s.tx.txBit ∧
    (statusWord s).getLsbD 12 = decide (s.tx.txMsgLen.toNat < s.tx.txBitNum.toNat) ∧
    (statusWord s).extractLsb' 13 3 =
      (match s.rx.mode with
        | .findBitsync => 0 | .findWordsync => 1 | .findData => 2 | .findEop => 3 | .eopHoldOff => 4) ∧
    (statusWord s).getLsbD 16 = s.rx.bitEvt ∧ (statusWord s).extractLsb' 17 15 = 0

/-! ### Whole-machine rules -/

/-- NOP changes nothing and is answered 0 (40 R404). -/
def Obligations.NopChangesNothing : Prop :=
  (∀ s : State, exec .nop s = .next { s with responses := s.responses ++ [0] }) ∧
  (∀ (s : State) (w : Word) (rest : List Word), s.cmdIn = w :: rest →
    w.extractLsb' 27 5 = 0x00#5 → w ≠ 0x00000000 →
    step s = .next { s with cmdIn := rest, err := s.err ||| 0b0001, responses := s.responses ++ [0] })

/-- ERR is sticky, and a command sets at most one of its bits (10 R111, 60 R1202, R1203). -/
def Obligations.ErrIsStickyAndGainsAtMostOneBit : Prop :=
  ∀ s t : State, step s = .next t →
    ∃ b : BitVec 4, (b = 0 ∨ b = 1 ∨ b = 2 ∨ b = 4 ∨ b = 8) ∧ t.err = s.err ||| b

/-- Only SAMPLE and RX_RESET change RX_MODE; only SAMPLE and RX_VALIDATE change MSG_PENDING: no other command
mutates the receive path, the PLL or the slicer (43 R700, 70 R1312). -/
def Obligations.OnlyReceiveCommandsChangeTheReceiver : Prop :=
  ∀ (i : Instr) (s t : State), exec i s = .next t → (∀ seed x, i ≠ .sample seed x) →
    t.sq = s.sq ∧
    (i ≠ .rxReset → t.pll = s.pll ∧ t.rx = { s.rx with msgPending := t.rx.msgPending }) ∧
    (i ≠ .rxValidate → t.rx.msgPending = s.rx.msgPending) ∧
    (i = .rxValidate → t.rx.msgPending = false) ∧
    t.rx.rxbuf = s.rx.rxbuf ∧ t.rx.byteCount = s.rx.byteCount ∧ t.rx.bitEvt = s.rx.bitEvt

/-- Each array changes only on one command: RXBUF on SAMPLE, RXOUT on RX_VALIDATE, TXUSER on TXBUF_WR, TXDATA on
TX_ENCODE, CRCTAB on none; CRC_REG changes only on CRC_INIT and CRC_BYTE, and no command writes the configuration
(20 R210, 10 R109, R113). -/
def Obligations.EachArrayHasOneWriter : Prop :=
  ∀ (i : Instr) (s t : State), exec i s = .next t →
    (t.rx.rxbuf ≠ s.rx.rxbuf → ∃ seed x, i = .sample seed x) ∧
    (t.validator.rxout ≠ s.validator.rxout → i = .rxValidate) ∧
    (t.tx.txuser ≠ s.tx.txuser → ∃ idx byte, i = .txbufWr idx byte) ∧
    (t.tx.txdata ≠ s.tx.txdata → ∃ len, i = .txEncode len) ∧
    (t.crc.crcReg ≠ s.crc.crcReg → i = .crcInit ∨ ∃ byte, i = .crcByte byte) ∧
    t.crc.crcTab = s.crc.crcTab ∧ t.cfg = s.cfg

/-- The statistics counters only count: every command leaves each as it is or adds 1 modulo 2^32, and only SAMPLE and
RX_VALIDATE move them, SAMPLE those of the receive path, RX_VALIDATE the last two (10 R110; 43 R724, derived). -/
def Obligations.StatisticsOnlyCount : Prop :=
  ∀ (i : Instr) (s t : State), exec i s = .next t →
    (∀ (k : Nat) (h : k < 9), t.stat[k] = s.stat[k] ∨ t.stat[k] = s.stat[k] + 1) ∧
    (∀ (k : Nat) (h : k < 7), t.stat[k] ≠ s.stat[k] → ∃ seed x, i = .sample seed x) ∧
    (t.stat[7] ≠ s.stat[7] ∨ t.stat[8] ≠ s.stat[8] → i = .rxValidate)
end

