-- ==== Sys2Proof/Laws/Arith.lean ====
section
/-! SUPPORT. Arithmetic of the registers: values that fit a register come back unchanged, and the bounds of the
primitives of 00 R11. -/

namespace Sys2Proof.Machine

/-- A natural number below 2^w is unchanged by a w-bit register. -/
theorem toNat_ofNat_of_lt {w n : Nat} (h : n < 2 ^ w) : (BitVec.ofNat w n).toNat = n := by
  simp [Nat.mod_eq_of_lt h]

/-- An integer in the signed range of w bits is unchanged by a w-bit register. -/
theorem toInt_ofInt_of_range {w : Nat} {v : Int} (h1 : -(2 ^ w / 2 : Int) ≤ v) (h2 : v < 2 ^ w / 2)
    (hw : 0 < w) : (BitVec.ofInt w v).toInt = v := by
  rw [BitVec.toInt_ofInt]
  obtain ⟨n, rfl⟩ : ∃ n, w = n + 1 := ⟨w - 1, by omega⟩
  have e : (2 : Int) ^ (n + 1) = 2 * 2 ^ n := by ring
  rw [e] at h1 h2
  apply Int.bmod_eq_of_le <;> push_cast <;> rw [e] <;> omega

/-- A 16-bit value fits 16 signed bits. -/
theorem fits16_toInt (x : BitVec 16) : Fits16 x.toInt := by
  have h1 := x.le_toInt
  have h2 := x.toInt_lt
  simp at h1 h2
  exact ⟨by omega, by omega⟩

/-- The magnitude of a 16-bit value. -/
theorem natAbs_toInt16_le (x : BitVec 16) : x.toInt.natAbs ≤ 2 ^ 15 := by
  have h := fits16_toInt x
  unfold Fits16 at h
  omega

/-- sat16 saturates (00 R11). -/
theorem fits16_sat16 (v : Int) : Fits16 (sat16 v) := by
  unfold sat16 clamp Fits16
  split_ifs <;> omega

/-- The product of two 16-bit values (41 R509). -/
theorem natAbs_mul_le_of_fits16 {a b : Int} (ha : Fits16 a) (hb : Fits16 b) : (a * b).natAbs ≤ 2 ^ 30 := by
  rw [Int.natAbs_mul]
  have h1 : a.natAbs ≤ 2 ^ 15 := by unfold Fits16 at ha; omega
  have h2 : b.natAbs ≤ 2 ^ 15 := by unfold Fits16 at hb; omega
  calc _ ≤ 2 ^ 15 * 2 ^ 15 := Nat.mul_le_mul h1 h2
    _ = _ := by norm_num

/-- An arithmetic right shift does not raise the magnitude above a bound. -/
theorem natAbs_asr_le {a : Int} {s k : Nat} (h : a.natAbs ≤ k) : (asr a s).natAbs ≤ k := by
  unfold asr
  have h2 : (0 : Int) < 2 ^ s := by positivity
  rcases le_or_gt 0 a with h0 | h0
  · have := Int.ediv_nonneg h0 h2.le
    have := Int.ediv_le_self (2 ^ s) h0
    omega
  · have h3 : a ≤ a / 2 ^ s := by
      rw [Int.le_ediv_iff_mul_le h2]
      nlinarith
    have : a / 2 ^ s < 0 := Int.ediv_neg_of_neg_of_pos h0 h2
    omega

/-- clamp to a symmetric range as a minimum and a maximum (00 R11). -/
theorem clamp_eq_max_min (v : Int) (n : Nat) : clamp v (-(n : Int)) n = max (-(n : Int)) (min (n : Int) v) := by
  unfold clamp
  split_ifs <;> omega

/-- The receiver's shift as arithmetic (20 R205). -/
theorem toNat_shiftIn (d : BitVec 16) (b : Bool) : (shiftIn d b).toNat = (2 * d.toNat + b.toNat) % 2 ^ 16 := by
  unfold shiftIn
  have e : d <<< 1 ||| (BitVec.ofBool b).setWidth 16 = (d <<< 1) + (BitVec.ofBool b).setWidth 16 := by
    symm
    apply BitVec.add_eq_or_of_and_eq_zero
    ext i hi
    cases b <;> simp
    cases i <;> simp
  rw [e, BitVec.toNat_add, BitVec.toNat_shiftLeft]
  cases b <;> simp [Nat.shiftLeft_eq] <;> omega

/-- A write inside an array's bounds. -/
theorem setIfInBounds_eq_set {α : Type} {n : Nat} (v : Vector α n) (i : Nat) (x : α) (h : i < n) :
    v.setIfInBounds i x = v.set i x := by
  ext j hj
  rw [Vector.getElem_setIfInBounds, Vector.getElem_set]

/-- A write of one entry of a delay line. -/
theorem getD_set {dl : List (BitVec 32)} {k : Nat} (i : Nat) (v : BitVec 32) (h : k < dl.length) :
    (dl.set k v).getD i 0 = if i = k then v else dl.getD i 0 := by
  rw [List.getD_eq_getElem?_getD, List.getElem?_set]
  by_cases hik : i = k
  · subst hik; simp [h]
  · have hki : ¬ k = i := fun e => hik e.symm
    simp [hik, hki]

/-- A 16-bit value is its high byte followed by its low byte (20 R204). -/
theorem append_bytes (v : BitVec 16) : v.extractLsb' 8 8 ++ v.extractLsb' 0 8 = v := by
  apply BitVec.eq_of_getLsbD_eq
  intro i hi
  rw [BitVec.getLsbD_append]
  simp only [BitVec.getLsbD_extractLsb']
  interval_cases i <;> simp

end Sys2Proof.Machine
end

