-- ==== Sys2Proof/Laws/CarrierPll.lean ====
section
/-! SUPPORT. CarrierPLL: the ranges of each step of Track (41 R504, R509, R510) and what each step leaves alone. -/

namespace Sys2Proof.Machine

/-! ### Step 1 -/

theorem fits16_agcLoop (c : Config) (x : Int) (fuel g : Nat) : Fits16 (agcLoop c x fuel g).1 := by
  induction fuel generalizing g with
  | zero => exact fits16_sat16 _
  | succ n ih =>
    unfold agcLoop
    split_ifs with h h2
    · exact h
    · exact fits16_sat16 _
    · exact ih _

theorem agcLoop_index_le (c : Config) (x : Int) (fuel g : Nat) : (agcLoop c x fuel g).2 ≤ g := by
  induction fuel generalizing g with
  | zero => exact le_refl _
  | succ n ih =>
    unfold agcLoop
    split_ifs with h h2
    · exact le_refl _
    · exact le_refl _
    · exact (ih _).trans (Nat.sub_le _ _)

/-- The scaled sample fits 16 signed bits (41 R504). -/
theorem fits16_agcPrescale (c : Config) {x : Int} (p : Pll) (hx : Fits16 x) : Fits16 (agcPrescale c x p).1 := by
  unfold agcPrescale
  split_ifs
  · exact fits16_agcLoop ..
  · exact hx

/-- Step 1 writes GAIN_INDEX only, and never raises it (41 R502). -/
theorem agcPrescale_pll (c : Config) (x : Int) (p : Pll) :
    ∃ g : BitVec 8, g.toNat ≤ p.gainIndex.toNat ∧ (agcPrescale c x p).2 = { p with gainIndex := g } := by
  unfold agcPrescale
  split_ifs
  · refine ⟨_, ?_, rfl⟩
    have := agcLoop_index_le c x (p.gainIndex.toNat + 1) p.gainIndex.toNat
    have := p.gainIndex.isLt
    rw [toNat_ofNat_of_lt] <;> omega
  · exact ⟨p.gainIndex, le_refl _, rfl⟩

/-! ### Step 2 -/

theorem phaseMod_bounds {c : Config} (h : c.OscillatorOk) : 0 < c.phaseMod ∧ c.phaseMod ≤ 2 ^ 32 := by
  obtain ⟨h1, h2, h3, h4, h5⟩ := h
  unfold Config.phaseMod phaseFracBits
  constructor <;> omega

theorem nextPhase_lt (c : Config) (p : Pll) (h : 0 < c.phaseMod) : nextPhase c p < c.phaseMod := by
  unfold nextPhase
  have := Int.emod_lt_of_pos ((p.phase.toNat : Int) + c.eta0 + p.eta.toInt) (b := (c.phaseMod : Int))
    (by omega)
  have := Int.emod_nonneg ((p.phase.toNat : Int) + c.eta0 + p.eta.toInt) (b := (c.phaseMod : Int))
    (by omega)
  omega

/-- BIT_PHASE is below N·Q when PHASE and CYCLE are in range (10 R103, 41 R507). -/
theorem bitPhase_lt {c : Config} (h : c.OscillatorOk) {p : Pll} (h1 : p.phase.toNat < c.phaseMod)
    (h2 : p.cycle.toNat < c.cyclesPerBit) : bitPhase c p < c.cyclesPerBit * c.quarterLen := by
  obtain ⟨h3, h4, h5, _⟩ := h
  unfold bitPhase
  have hq : c.sineLen = 4 * c.quarterLen := by unfold Config.quarterLen; omega
  have : p.phase.toNat / 2 ^ phaseFracBits / 4 < c.quarterLen := by
    unfold Config.phaseMod phaseFracBits at h1
    unfold phaseFracBits
    omega
  calc _ < p.cycle.toNat * c.quarterLen + c.quarterLen := by omega
    _ = (p.cycle.toNat + 1) * c.quarterLen := by ring
    _ ≤ _ := Nat.mul_le_mul_right _ h2

/-! ### Steps 3 and 4 -/

theorem fits16_sine (c : Config) (i : Nat) : Fits16 (c.sine i) := fits16_toInt _

theorem lineSum_set (dl : List (BitVec 32)) (k : Nat) (v : BitVec 32) (h : k < dl.length) :
    lineSum (dl.set k v) = lineSum dl - evicted dl k + v.toInt := by
  unfold lineSum evicted
  induction dl generalizing k with
  | nil => simp at h
  | cons a l ih =>
    cases k with
    | zero => simp; ring
    | succ k =>
      simp only [List.length_cons, Nat.add_lt_add_iff_right] at h
      have e := ih k h
      simp only [List.set_cons_succ, List.map_cons, List.sum_cons, List.getElem?_cons_succ, e]
      ring

theorem natAbs_lineSum_le (dl : List (BitVec 32)) (h : ∀ v ∈ dl, v.toInt.natAbs ≤ 2 ^ 30) :
    (lineSum dl).natAbs ≤ dl.length * 2 ^ 30 := by
  unfold lineSum
  induction dl with
  | nil => simp
  | cons a l ih =>
    simp only [List.mem_cons, forall_eq_or_imp] at h
    have := ih h.2
    have := h.1
    simp only [List.map_cons, List.sum_cons, List.length_cons]
    omega

/-- One product enters a window whose sum is right: the slot holds it exactly, the new sum is exact and right again,
and the bounds are kept (41 R509, R510). -/
theorem slideSum_exact {sum : BitVec 48} {dl : List (BitVec 32)} {k W : Nat} {prod : Int} (hW : W ≤ 255)
    (hl : dl.length = W) (hk : k < W) (hb : ∀ v ∈ dl, v.toInt.natAbs ≤ 2 ^ 30)
    (hs : sum.toInt = lineSum dl) (hp : prod.natAbs ≤ 2 ^ 30) :
    (BitVec.ofInt 32 prod).toInt = prod ∧
    (∀ v ∈ dl.set k (BitVec.ofInt 32 prod), v.toInt.natAbs ≤ 2 ^ 30) ∧
    (slideSum sum dl k prod).toInt = sum.toInt - evicted dl k + prod ∧
    (slideSum sum dl k prod).toInt = lineSum (dl.set k (BitVec.ofInt 32 prod)) ∧
    (slideSum sum dl k prod).toInt.natAbs ≤ W * 2 ^ 30 := by
  have h32 : (BitVec.ofInt 32 prod).toInt = prod :=
    toInt_ofInt_of_range (by norm_num; omega) (by norm_num; omega) (by norm_num)
  have hmem : ∀ v ∈ dl.set k (BitVec.ofInt 32 prod), v.toInt.natAbs ≤ 2 ^ 30 := by
    intro v hv
    rcases List.mem_or_eq_of_mem_set hv with h | h
    · exact hb v h
    · rw [h, h32]; exact hp
  have hls := lineSum_set dl k (BitVec.ofInt 32 prod) (by omega)
  have hbd := natAbs_lineSum_le _ hmem
  rw [h32, ← hs] at hls
  have hlen : (dl.set k (BitVec.ofInt 32 prod)).length = W := by simp [hl]
  rw [hlen] at hbd
  have e : (slideSum sum dl k prod).toInt = sum.toInt - evicted dl k + prod := by
    unfold slideSum
    rw [← hls]
    apply toInt_ofInt_of_range <;> norm_num <;> omega
  exact ⟨h32, hmem, e, by rw [e, hls], by rw [e, ← hls]; exact hbd⟩

/-! ### The holds -/

/-- Track writes neither AGC_HOLD nor PHASE_HOLD (41 R500). -/
theorem track_holds (c : Config) (x : Int) (p : Pll) :
    (track c x p).1.agcHold = p.agcHold ∧ (track c x p).1.phaseHold = p.phaseHold := by
  obtain ⟨g, hg, ha⟩ := agcPrescale_pll c x p
  unfold track agcFeedback loopFilter
  simp only []
  rw [ha]
  split_ifs <;> exact ⟨rfl, rfl⟩

end Sys2Proof.Machine
end

