-- ==== Sys2Proof/Laws/State.lean ====
section
/-! SUPPORT. One lemma for each field of State and each named update, so that no proof unfolds a record update. -/

namespace Sys2Proof.Machine

@[simp] theorem respond_cfg (r : Word) (s : State) :
    (respond r s).cfg = s.cfg := rfl

@[simp] theorem respond_pll (r : Word) (s : State) :
    (respond r s).pll = s.pll := rfl

@[simp] theorem respond_sq (r : Word) (s : State) :
    (respond r s).sq = s.sq := rfl

@[simp] theorem respond_rx (r : Word) (s : State) :
    (respond r s).rx = s.rx := rfl

@[simp] theorem respond_validator (r : Word) (s : State) :
    (respond r s).validator = s.validator := rfl

@[simp] theorem respond_tx (r : Word) (s : State) :
    (respond r s).tx = s.tx := rfl

@[simp] theorem respond_crc (r : Word) (s : State) :
    (respond r s).crc = s.crc := rfl

@[simp] theorem respond_stat (r : Word) (s : State) :
    (respond r s).stat = s.stat := rfl

@[simp] theorem respond_err (r : Word) (s : State) :
    (respond r s).err = s.err := rfl

@[simp] theorem respond_cmdIn (r : Word) (s : State) :
    (respond r s).cmdIn = s.cmdIn := rfl

@[simp] theorem respond_responses (r : Word) (s : State) :
    (respond r s).responses = s.responses ++ [r] := rfl

@[simp] theorem reject_cfg (e : CmdError) (s : State) :
    (reject e s).cfg = s.cfg := rfl

@[simp] theorem reject_pll (e : CmdError) (s : State) :
    (reject e s).pll = s.pll := rfl

@[simp] theorem reject_sq (e : CmdError) (s : State) :
    (reject e s).sq = s.sq := rfl

@[simp] theorem reject_rx (e : CmdError) (s : State) :
    (reject e s).rx = s.rx := rfl

@[simp] theorem reject_validator (e : CmdError) (s : State) :
    (reject e s).validator = s.validator := rfl

@[simp] theorem reject_tx (e : CmdError) (s : State) :
    (reject e s).tx = s.tx := rfl

@[simp] theorem reject_crc (e : CmdError) (s : State) :
    (reject e s).crc = s.crc := rfl

@[simp] theorem reject_stat (e : CmdError) (s : State) :
    (reject e s).stat = s.stat := rfl

@[simp] theorem reject_err (e : CmdError) (s : State) :
    (reject e s).err = s.err ||| errBit e := rfl

@[simp] theorem reject_cmdIn (e : CmdError) (s : State) :
    (reject e s).cmdIn = s.cmdIn := rfl

@[simp] theorem reject_responses (e : CmdError) (s : State) :
    (reject e s).responses = s.responses ++ [0] := rfl

@[simp] theorem countEvent_cfg (n : StatName) (s : State) :
    (countEvent n s).cfg = s.cfg := rfl

@[simp] theorem countEvent_pll (n : StatName) (s : State) :
    (countEvent n s).pll = s.pll := rfl

@[simp] theorem countEvent_sq (n : StatName) (s : State) :
    (countEvent n s).sq = s.sq := rfl

@[simp] theorem countEvent_rx (n : StatName) (s : State) :
    (countEvent n s).rx = s.rx := rfl

@[simp] theorem countEvent_validator (n : StatName) (s : State) :
    (countEvent n s).validator = s.validator := rfl

@[simp] theorem countEvent_tx (n : StatName) (s : State) :
    (countEvent n s).tx = s.tx := rfl

@[simp] theorem countEvent_crc (n : StatName) (s : State) :
    (countEvent n s).crc = s.crc := rfl

@[simp] theorem countEvent_stat (n : StatName) (s : State) :
    (countEvent n s).stat = s.stat.set (statIndex n) (s.stat[statIndex n] + 1) := rfl

@[simp] theorem countEvent_err (n : StatName) (s : State) :
    (countEvent n s).err = s.err := rfl

@[simp] theorem countEvent_cmdIn (n : StatName) (s : State) :
    (countEvent n s).cmdIn = s.cmdIn := rfl

@[simp] theorem countEvent_responses (n : StatName) (s : State) :
    (countEvent n s).responses = s.responses := rfl

@[simp] theorem issueFirst_cfg (w : Word) (s : State) :
    (issueFirst w s).cfg = s.cfg := rfl

@[simp] theorem issueFirst_pll (w : Word) (s : State) :
    (issueFirst w s).pll = s.pll := rfl

@[simp] theorem issueFirst_sq (w : Word) (s : State) :
    (issueFirst w s).sq = s.sq := rfl

@[simp] theorem issueFirst_rx (w : Word) (s : State) :
    (issueFirst w s).rx = s.rx := rfl

@[simp] theorem issueFirst_validator (w : Word) (s : State) :
    (issueFirst w s).validator = s.validator := rfl

@[simp] theorem issueFirst_tx (w : Word) (s : State) :
    (issueFirst w s).tx = s.tx := rfl

@[simp] theorem issueFirst_crc (w : Word) (s : State) :
    (issueFirst w s).crc = s.crc := rfl

@[simp] theorem issueFirst_stat (w : Word) (s : State) :
    (issueFirst w s).stat = s.stat := rfl

@[simp] theorem issueFirst_err (w : Word) (s : State) :
    (issueFirst w s).err = s.err := rfl

@[simp] theorem issueFirst_cmdIn (w : Word) (s : State) :
    (issueFirst w s).cmdIn = w :: s.cmdIn := rfl

@[simp] theorem issueFirst_responses (w : Word) (s : State) :
    (issueFirst w s).responses = s.responses := rfl

@[simp] theorem resetToBitSync_cfg (s : State) :
    (resetToBitSync s).cfg = s.cfg := rfl

@[simp] theorem resetToBitSync_pll (s : State) :
    (resetToBitSync s).pll = pllToBitSync s.cfg := rfl

@[simp] theorem resetToBitSync_sq (s : State) :
    (resetToBitSync s).sq = s.sq := rfl

@[simp] theorem resetToBitSync_rx (s : State) :
    (resetToBitSync s).rx = rxToBitSync s.rx := rfl

@[simp] theorem resetToBitSync_validator (s : State) :
    (resetToBitSync s).validator = s.validator := rfl

@[simp] theorem resetToBitSync_tx (s : State) :
    (resetToBitSync s).tx = s.tx := rfl

@[simp] theorem resetToBitSync_crc (s : State) :
    (resetToBitSync s).crc = s.crc := rfl

@[simp] theorem resetToBitSync_stat (s : State) :
    (resetToBitSync s).stat = s.stat := rfl

@[simp] theorem resetToBitSync_err (s : State) :
    (resetToBitSync s).err = s.err := rfl

@[simp] theorem resetToBitSync_cmdIn (s : State) :
    (resetToBitSync s).cmdIn = s.cmdIn := rfl

@[simp] theorem resetToBitSync_responses (s : State) :
    (resetToBitSync s).responses = s.responses := rfl

@[simp] theorem setCrcReg_cfg (v : BitVec 16) (s : State) :
    (setCrcReg v s).cfg = s.cfg := rfl

@[simp] theorem setCrcReg_pll (v : BitVec 16) (s : State) :
    (setCrcReg v s).pll = s.pll := rfl

@[simp] theorem setCrcReg_sq (v : BitVec 16) (s : State) :
    (setCrcReg v s).sq = s.sq := rfl

@[simp] theorem setCrcReg_rx (v : BitVec 16) (s : State) :
    (setCrcReg v s).rx = s.rx := rfl

@[simp] theorem setCrcReg_validator (v : BitVec 16) (s : State) :
    (setCrcReg v s).validator = s.validator := rfl

@[simp] theorem setCrcReg_tx (v : BitVec 16) (s : State) :
    (setCrcReg v s).tx = s.tx := rfl

@[simp] theorem setCrcReg_crc (v : BitVec 16) (s : State) :
    (setCrcReg v s).crc = { s.crc with crcReg := v } := rfl

@[simp] theorem setCrcReg_stat (v : BitVec 16) (s : State) :
    (setCrcReg v s).stat = s.stat := rfl

@[simp] theorem setCrcReg_err (v : BitVec 16) (s : State) :
    (setCrcReg v s).err = s.err := rfl

@[simp] theorem setCrcReg_cmdIn (v : BitVec 16) (s : State) :
    (setCrcReg v s).cmdIn = s.cmdIn := rfl

@[simp] theorem setCrcReg_responses (v : BitVec 16) (s : State) :
    (setCrcReg v s).responses = s.responses ++ [zext v] := rfl

@[simp] theorem storeByte_cfg (s : State) :
    (storeByte s).cfg = s.cfg := rfl

@[simp] theorem storeByte_pll (s : State) :
    (storeByte s).pll = s.pll := rfl

@[simp] theorem storeByte_sq (s : State) :
    (storeByte s).sq = s.sq := rfl

@[simp] theorem storeByte_validator (s : State) :
    (storeByte s).validator = s.validator := rfl

@[simp] theorem storeByte_tx (s : State) :
    (storeByte s).tx = s.tx := rfl

@[simp] theorem storeByte_crc (s : State) :
    (storeByte s).crc = s.crc := rfl

@[simp] theorem storeByte_stat (s : State) :
    (storeByte s).stat = s.stat := rfl

@[simp] theorem storeByte_err (s : State) :
    (storeByte s).err = s.err := rfl

@[simp] theorem storeByte_cmdIn (s : State) :
    (storeByte s).cmdIn = s.cmdIn := rfl

@[simp] theorem storeByte_responses (s : State) :
    (storeByte s).responses = s.responses := rfl

@[simp] theorem nextCodeword_cfg (s : State) :
    (nextCodeword s).cfg = s.cfg := rfl

@[simp] theorem nextCodeword_pll (s : State) :
    (nextCodeword s).pll = s.pll := rfl

@[simp] theorem nextCodeword_sq (s : State) :
    (nextCodeword s).sq = s.sq := rfl

@[simp] theorem nextCodeword_validator (s : State) :
    (nextCodeword s).validator = s.validator := rfl

@[simp] theorem nextCodeword_tx (s : State) :
    (nextCodeword s).tx = s.tx := rfl

@[simp] theorem nextCodeword_crc (s : State) :
    (nextCodeword s).crc = s.crc := rfl

@[simp] theorem nextCodeword_stat (s : State) :
    (nextCodeword s).stat = s.stat := rfl

@[simp] theorem nextCodeword_err (s : State) :
    (nextCodeword s).err = s.err := rfl

@[simp] theorem nextCodeword_cmdIn (s : State) :
    (nextCodeword s).cmdIn = s.cmdIn := rfl

@[simp] theorem nextCodeword_responses (s : State) :
    (nextCodeword s).responses = s.responses := rfl

@[simp] theorem eopFound_cfg (seed : BitVec 11) (s : State) :
    (eopFound seed s).cfg = s.cfg := by simp [eopFound]

@[simp] theorem eopFound_pll (seed : BitVec 11) (s : State) :
    (eopFound seed s).pll = s.pll := by simp [eopFound]

@[simp] theorem eopFound_sq (seed : BitVec 11) (s : State) :
    (eopFound seed s).sq = s.sq := by simp [eopFound]

@[simp] theorem eopFound_validator (seed : BitVec 11) (s : State) :
    (eopFound seed s).validator = s.validator := by simp [eopFound]

@[simp] theorem eopFound_tx (seed : BitVec 11) (s : State) :
    (eopFound seed s).tx = s.tx := by simp [eopFound]

@[simp] theorem eopFound_crc (seed : BitVec 11) (s : State) :
    (eopFound seed s).crc = s.crc := by simp [eopFound]

@[simp] theorem eopFound_err (seed : BitVec 11) (s : State) :
    (eopFound seed s).err = s.err := by simp [eopFound]

@[simp] theorem eopFound_cmdIn (seed : BitVec 11) (s : State) :
    (eopFound seed s).cmdIn = s.cmdIn := by simp [eopFound]

@[simp] theorem eopFound_responses (seed : BitVec 11) (s : State) :
    (eopFound seed s).responses = s.responses := by simp [eopFound]

@[simp] theorem countSample_cfg (s : State) :
    (countSample s).cfg = s.cfg := rfl

@[simp] theorem countSample_pll (s : State) :
    (countSample s).pll = s.pll := rfl

@[simp] theorem countSample_sq (s : State) :
    (countSample s).sq = s.sq := rfl

@[simp] theorem countSample_rx (s : State) :
    (countSample s).rx = { s.rx with sinceTrans := satInc16 s.rx.sinceTrans } := rfl

@[simp] theorem countSample_validator (s : State) :
    (countSample s).validator = s.validator := rfl

@[simp] theorem countSample_tx (s : State) :
    (countSample s).tx = s.tx := rfl

@[simp] theorem countSample_crc (s : State) :
    (countSample s).crc = s.crc := rfl

@[simp] theorem countSample_stat (s : State) :
    (countSample s).stat = s.stat := rfl

@[simp] theorem countSample_err (s : State) :
    (countSample s).err = s.err := rfl

@[simp] theorem countSample_cmdIn (s : State) :
    (countSample s).cmdIn = s.cmdIn := rfl

@[simp] theorem countSample_responses (s : State) :
    (countSample s).responses = s.responses := rfl

@[simp] theorem clearPending_cfg (s : State) :
    (clearPending s).cfg = s.cfg := rfl

@[simp] theorem clearPending_pll (s : State) :
    (clearPending s).pll = s.pll := rfl

@[simp] theorem clearPending_sq (s : State) :
    (clearPending s).sq = s.sq := rfl

@[simp] theorem clearPending_rx (s : State) :
    (clearPending s).rx = { s.rx with msgPending := false } := rfl

@[simp] theorem clearPending_validator (s : State) :
    (clearPending s).validator = s.validator := rfl

@[simp] theorem clearPending_tx (s : State) :
    (clearPending s).tx = s.tx := rfl

@[simp] theorem clearPending_crc (s : State) :
    (clearPending s).crc = s.crc := rfl

@[simp] theorem clearPending_stat (s : State) :
    (clearPending s).stat = s.stat := rfl

@[simp] theorem clearPending_err (s : State) :
    (clearPending s).err = s.err := rfl

@[simp] theorem clearPending_cmdIn (s : State) :
    (clearPending s).cmdIn = s.cmdIn := rfl

@[simp] theorem clearPending_responses (s : State) :
    (clearPending s).responses = s.responses := rfl

@[simp] theorem sampleTrack_cfg (x : BitVec 16) (s : State) :
    (sampleTrack x s).cfg = s.cfg := rfl

@[simp] theorem sampleTrack_pll (x : BitVec 16) (s : State) :
    (sampleTrack x s).pll = (track s.cfg (sampleOperand x) s.pll).1 := rfl

@[simp] theorem sampleTrack_sq (x : BitVec 16) (s : State) :
    (sampleTrack x s).sq = s.sq := rfl

@[simp] theorem sampleTrack_rx (x : BitVec 16) (s : State) :
    (sampleTrack x s).rx = { s.rx with bitEvt := false } := rfl

@[simp] theorem sampleTrack_validator (x : BitVec 16) (s : State) :
    (sampleTrack x s).validator = s.validator := rfl

@[simp] theorem sampleTrack_tx (x : BitVec 16) (s : State) :
    (sampleTrack x s).tx = s.tx := rfl

@[simp] theorem sampleTrack_crc (x : BitVec 16) (s : State) :
    (sampleTrack x s).crc = s.crc := rfl

@[simp] theorem sampleTrack_stat (x : BitVec 16) (s : State) :
    (sampleTrack x s).stat = s.stat := rfl

@[simp] theorem sampleTrack_err (x : BitVec 16) (s : State) :
    (sampleTrack x s).err = s.err := rfl

@[simp] theorem sampleTrack_cmdIn (x : BitVec 16) (s : State) :
    (sampleTrack x s).cmdIn = s.cmdIn := rfl

@[simp] theorem sampleTrack_responses (x : BitVec 16) (s : State) :
    (sampleTrack x s).responses = s.responses := rfl

@[simp] theorem sampleSquare_cfg (s : State) :
    (sampleSquare s).cfg = s.cfg := rfl

@[simp] theorem sampleSquare_pll (s : State) :
    (sampleSquare s).pll = s.pll := rfl

@[simp] theorem sampleSquare_sq (s : State) :
    (sampleSquare s).sq = square s.cfg s.pll.phcos.toInt s.sq := rfl

@[simp] theorem sampleSquare_rx (s : State) :
    (sampleSquare s).rx = s.rx := rfl

@[simp] theorem sampleSquare_validator (s : State) :
    (sampleSquare s).validator = s.validator := rfl

@[simp] theorem sampleSquare_tx (s : State) :
    (sampleSquare s).tx = s.tx := rfl

@[simp] theorem sampleSquare_crc (s : State) :
    (sampleSquare s).crc = s.crc := rfl

@[simp] theorem sampleSquare_stat (s : State) :
    (sampleSquare s).stat = s.stat := rfl

@[simp] theorem sampleSquare_err (s : State) :
    (sampleSquare s).err = s.err := rfl

@[simp] theorem sampleSquare_cmdIn (s : State) :
    (sampleSquare s).cmdIn = s.cmdIn := rfl

@[simp] theorem sampleSquare_responses (s : State) :
    (sampleSquare s).responses = s.responses := rfl

@[simp] theorem acceptMessage_cfg (p : Nat) (s : State) :
    (acceptMessage p s).cfg = s.cfg := by simp [acceptMessage]

@[simp] theorem acceptMessage_pll (p : Nat) (s : State) :
    (acceptMessage p s).pll = s.pll := by simp [acceptMessage]

@[simp] theorem acceptMessage_sq (p : Nat) (s : State) :
    (acceptMessage p s).sq = s.sq := by simp [acceptMessage]

@[simp] theorem acceptMessage_rx (p : Nat) (s : State) :
    (acceptMessage p s).rx = s.rx := by simp [acceptMessage]

@[simp] theorem acceptMessage_tx (p : Nat) (s : State) :
    (acceptMessage p s).tx = s.tx := by simp [acceptMessage]

@[simp] theorem acceptMessage_crc (p : Nat) (s : State) :
    (acceptMessage p s).crc = s.crc := by simp [acceptMessage]

@[simp] theorem acceptMessage_err (p : Nat) (s : State) :
    (acceptMessage p s).err = s.err := by simp [acceptMessage]

@[simp] theorem acceptMessage_cmdIn (p : Nat) (s : State) :
    (acceptMessage p s).cmdIn = s.cmdIn := by simp [acceptMessage]

@[simp] theorem acceptMessage_responses (p : Nat) (s : State) :
    (acceptMessage p s).responses = s.responses := by simp [acceptMessage]

@[simp] theorem dropMessage_cfg (s : State) :
    (dropMessage s).cfg = s.cfg := by simp [dropMessage]

@[simp] theorem dropMessage_pll (s : State) :
    (dropMessage s).pll = s.pll := by simp [dropMessage]

@[simp] theorem dropMessage_sq (s : State) :
    (dropMessage s).sq = s.sq := by simp [dropMessage]

@[simp] theorem dropMessage_rx (s : State) :
    (dropMessage s).rx = s.rx := by simp [dropMessage]

@[simp] theorem dropMessage_tx (s : State) :
    (dropMessage s).tx = s.tx := by simp [dropMessage]

@[simp] theorem dropMessage_crc (s : State) :
    (dropMessage s).crc = s.crc := by simp [dropMessage]

@[simp] theorem dropMessage_err (s : State) :
    (dropMessage s).err = s.err := by simp [dropMessage]

@[simp] theorem dropMessage_cmdIn (s : State) :
    (dropMessage s).cmdIn = s.cmdIn := by simp [dropMessage]

@[simp] theorem dropMessage_responses (s : State) :
    (dropMessage s).responses = s.responses := by simp [dropMessage]

@[simp] theorem encodeFrame_cfg (n : Nat) (s : State) :
    (encodeFrame n s).cfg = s.cfg := rfl

@[simp] theorem encodeFrame_pll (n : Nat) (s : State) :
    (encodeFrame n s).pll = s.pll := rfl

@[simp] theorem encodeFrame_sq (n : Nat) (s : State) :
    (encodeFrame n s).sq = s.sq := rfl

@[simp] theorem encodeFrame_rx (n : Nat) (s : State) :
    (encodeFrame n s).rx = s.rx := rfl

@[simp] theorem encodeFrame_validator (n : Nat) (s : State) :
    (encodeFrame n s).validator = s.validator := rfl

@[simp] theorem encodeFrame_tx (n : Nat) (s : State) :
    (encodeFrame n s).tx = loadFrame (buildFrame s.cfg s.crc.crcTab (txPayload s.tx n)) s.tx := rfl

@[simp] theorem encodeFrame_crc (n : Nat) (s : State) :
    (encodeFrame n s).crc = s.crc := rfl

@[simp] theorem encodeFrame_stat (n : Nat) (s : State) :
    (encodeFrame n s).stat = s.stat := rfl

@[simp] theorem encodeFrame_err (n : Nat) (s : State) :
    (encodeFrame n s).err = s.err := rfl

@[simp] theorem encodeFrame_cmdIn (n : Nat) (s : State) :
    (encodeFrame n s).cmdIn = s.cmdIn := rfl

@[simp] theorem encodeFrame_responses (n : Nat) (s : State) :
    (encodeFrame n s).responses = s.responses := rfl

@[simp] theorem checkParity_cfg (s : State) :
    (checkParity s).cfg = s.cfg := by unfold checkParity; split <;> rfl

@[simp] theorem checkParity_pll (s : State) :
    (checkParity s).pll = s.pll := by unfold checkParity; split <;> rfl

@[simp] theorem checkParity_sq (s : State) :
    (checkParity s).sq = s.sq := by unfold checkParity; split <;> rfl

@[simp] theorem checkParity_rx (s : State) :
    (checkParity s).rx = s.rx := by unfold checkParity; split <;> rfl

@[simp] theorem checkParity_validator (s : State) :
    (checkParity s).validator = s.validator := by unfold checkParity; split <;> rfl

@[simp] theorem checkParity_tx (s : State) :
    (checkParity s).tx = s.tx := by unfold checkParity; split <;> rfl

@[simp] theorem checkParity_crc (s : State) :
    (checkParity s).crc = s.crc := by unfold checkParity; split <;> rfl

@[simp] theorem checkParity_err (s : State) :
    (checkParity s).err = s.err := by unfold checkParity; split <;> rfl

@[simp] theorem checkParity_cmdIn (s : State) :
    (checkParity s).cmdIn = s.cmdIn := by unfold checkParity; split <;> rfl

@[simp] theorem checkParity_responses (s : State) :
    (checkParity s).responses = s.responses := by unfold checkParity; split <;> rfl

@[simp] theorem enterFindEop_cfg (s : State) :
    (enterFindEop s).cfg = s.cfg := by unfold enterFindEop; split <;> rfl

@[simp] theorem enterFindEop_pll (s : State) :
    (enterFindEop s).pll = s.pll := by unfold enterFindEop; split <;> rfl

@[simp] theorem enterFindEop_sq (s : State) :
    (enterFindEop s).sq = s.sq := by unfold enterFindEop; split <;> rfl

@[simp] theorem enterFindEop_validator (s : State) :
    (enterFindEop s).validator = s.validator := by unfold enterFindEop; split <;> rfl

@[simp] theorem enterFindEop_tx (s : State) :
    (enterFindEop s).tx = s.tx := by unfold enterFindEop; split <;> rfl

@[simp] theorem enterFindEop_crc (s : State) :
    (enterFindEop s).crc = s.crc := by unfold enterFindEop; split <;> rfl

@[simp] theorem enterFindEop_stat (s : State) :
    (enterFindEop s).stat = s.stat := by unfold enterFindEop; split <;> rfl

@[simp] theorem enterFindEop_err (s : State) :
    (enterFindEop s).err = s.err := by unfold enterFindEop; split <;> rfl

@[simp] theorem enterFindEop_cmdIn (s : State) :
    (enterFindEop s).cmdIn = s.cmdIn := by unfold enterFindEop; split <;> rfl

@[simp] theorem enterFindEop_responses (s : State) :
    (enterFindEop s).responses = s.responses := by unfold enterFindEop; split <;> rfl

@[simp] theorem bitWrapClock_cfg (w : Bool) (s : State) :
    (bitWrapClock w s).cfg = s.cfg := by unfold bitWrapClock; split <;> rfl

@[simp] theorem bitWrapClock_sq (w : Bool) (s : State) :
    (bitWrapClock w s).sq = s.sq := by unfold bitWrapClock; split <;> rfl

@[simp] theorem bitWrapClock_validator (w : Bool) (s : State) :
    (bitWrapClock w s).validator = s.validator := by unfold bitWrapClock; split <;> rfl

@[simp] theorem bitWrapClock_tx (w : Bool) (s : State) :
    (bitWrapClock w s).tx = s.tx := by unfold bitWrapClock; split <;> rfl

@[simp] theorem bitWrapClock_crc (w : Bool) (s : State) :
    (bitWrapClock w s).crc = s.crc := by unfold bitWrapClock; split <;> rfl

@[simp] theorem bitWrapClock_stat (w : Bool) (s : State) :
    (bitWrapClock w s).stat = s.stat := by unfold bitWrapClock; split <;> rfl

@[simp] theorem bitWrapClock_err (w : Bool) (s : State) :
    (bitWrapClock w s).err = s.err := by unfold bitWrapClock; split <;> rfl

@[simp] theorem bitWrapClock_cmdIn (w : Bool) (s : State) :
    (bitWrapClock w s).cmdIn = s.cmdIn := by unfold bitWrapClock; split <;> rfl

@[simp] theorem bitWrapClock_responses (w : Bool) (s : State) :
    (bitWrapClock w s).responses = s.responses := by unfold bitWrapClock; split <;> rfl

@[simp] theorem transitionClock_cfg (s : State) :
    (transitionClock s).cfg = s.cfg := by unfold transitionClock; split <;> rfl

@[simp] theorem transitionClock_sq (s : State) :
    (transitionClock s).sq = s.sq := by unfold transitionClock; split <;> rfl

@[simp] theorem transitionClock_validator (s : State) :
    (transitionClock s).validator = s.validator := by unfold transitionClock; split <;> rfl

@[simp] theorem transitionClock_tx (s : State) :
    (transitionClock s).tx = s.tx := by unfold transitionClock; split <;> rfl

@[simp] theorem transitionClock_crc (s : State) :
    (transitionClock s).crc = s.crc := by unfold transitionClock; split <;> rfl

@[simp] theorem transitionClock_stat (s : State) :
    (transitionClock s).stat = s.stat := by unfold transitionClock; split <;> rfl

@[simp] theorem transitionClock_err (s : State) :
    (transitionClock s).err = s.err := by unfold transitionClock; split <;> rfl

@[simp] theorem transitionClock_cmdIn (s : State) :
    (transitionClock s).cmdIn = s.cmdIn := by unfold transitionClock; split <;> rfl

@[simp] theorem transitionClock_responses (s : State) :
    (transitionClock s).responses = s.responses := by unfold transitionClock; split <;> rfl

end Sys2Proof.Machine
end

