-- ==== Sys2Proof/Laws/Receiver.lean ====
section
/-! SUPPORT. What the receive step can change: the frame of SampleBit, RxStep and the SAMPLE chain, said once. -/

namespace Sys2Proof.Machine

/-- The receive step writes only PLL, receive and statistics registers. -/
structure RxFrame (s t : State) : Prop where
  cfg : t.cfg = s.cfg
  sq : t.sq = s.sq
  validator : t.validator = s.validator
  tx : t.tx = s.tx
  crc : t.crc = s.crc
  err : t.err = s.err
  cmdIn : t.cmdIn = s.cmdIn
  responses : t.responses = s.responses

theorem RxFrame.trans {s t u : State} (h : RxFrame s t) (k : RxFrame t u) : RxFrame s u :=
  ⟨k.1.trans h.1, k.2.trans h.2, k.3.trans h.3, k.4.trans h.4, k.5.trans h.5, k.6.trans h.6,
    k.7.trans h.7, k.8.trans h.8⟩

theorem RxFrame.of_pll_rx (s : State) (p : Pll) (r : Rx) : RxFrame s { s with pll := p, rx := r } :=
  ⟨rfl, rfl, rfl, rfl, rfl, rfl, rfl, rfl⟩

theorem RxFrame.of_rx (s : State) (r : Rx) : RxFrame s { s with rx := r } :=
  .of_pll_rx s s.pll r

theorem codewordDone_frame (seed : BitVec 11) (s : State) : RxFrame s (codewordDone seed s) := by
  unfold codewordDone
  constructor <;> split_ifs <;> simp

theorem sampleBit_frame (b : Bool) (seed : BitVec 11) (s : State) :
    RxFrame s (sampleBit b seed s) := by
  have data : RxFrame s (sampleData b seed s) := by
    unfold sampleData
    dsimp only
    split_ifs
    · generalize hu : ({ s with rx := _ } : State) = u
      exact RxFrame.trans (by subst hu; exact .of_rx s _) (codewordDone_frame seed u)
    · exact .of_rx s _
  unfold sampleBit
  split
  · unfold sampleBitsync; dsimp only; constructor <;> split_ifs <;> simp
  · unfold sampleWordsync; dsimp only; constructor <;> split_ifs <;> simp
  · exact data
  · exact data
  · exact ⟨rfl, rfl, rfl, rfl, rfl, rfl, rfl, rfl⟩

theorem samplePoint_frame (seed : BitVec 11) (s : State) : RxFrame s (samplePoint seed s) := by
  unfold samplePoint
  split
  · generalize hu : ({ s with pll := _, rx := _ } : State) = u
    exact RxFrame.trans (by subst hu; exact .of_pll_rx s _ _) (sampleBit_frame _ seed u)
  · exact .of_rx s s.rx

theorem rxActive_frame (w : Bool) (seed : BitVec 11) (s : State) : RxFrame s (rxActive w seed s) :=
  RxFrame.trans (by constructor <;> simp) (samplePoint_frame seed _)

theorem rxStep_frame (w : Bool) (seed : BitVec 11) (s : State) : RxFrame s (rxStep w seed s) := by
  unfold rxStep
  dsimp only
  split_ifs
  · exact ⟨rfl, rfl, rfl, rfl, rfl, rfl, rfl, rfl⟩
  · exact RxFrame.trans (by constructor <;> simp) (rxActive_frame _ seed _)
  · exact rxActive_frame w seed s

/-- What the receive chain of one SAMPLE leaves alone, and what the slicer reads. -/
theorem sampleChain_frame (seed : BitVec 11) (x : BitVec 16) (s : State) :
    RxFrame (sampleSquare (sampleTrack x s)) (sampleChain seed x s) :=
  rxStep_frame _ seed _

/-! ### The registers of the bit clock (43 R711, R712) -/

theorem bitWrapClock_pll (w : Bool) (s : State) :
    (bitWrapClock w s).pll = if w then { s.pll with phaseHold := false } else s.pll := by
  unfold bitWrapClock
  split_ifs <;> rfl

theorem bitWrapClock_rx (w : Bool) (s : State) :
    (bitWrapClock w s).rx =
      if w then { s.rx with bitDue := if s.rx.mode = .findBitsync then s.rx.bitDue else true }
      else s.rx := by
  unfold bitWrapClock
  split_ifs <;> rfl

theorem transitionClock_pll (s : State) :
    (transitionClock s).pll =
      if s.rx.mode = .findBitsync ∧ s.sq.trans then { s.pll with cycle := 0, phaseHold := false }
      else s.pll := by
  unfold transitionClock
  split_ifs <;> rfl

theorem transitionClock_rx (s : State) :
    (transitionClock s).rx =
      if s.rx.mode = .findBitsync ∧ s.sq.trans then
        { s.rx with
          detData := if outsideWindow s.cfg s.rx.sinceTrans then 0 else s.rx.detData
          sinceTrans := 0
          bitDue := true }
      else s.rx := by
  unfold transitionClock
  split_ifs <;> rfl

/-- BIT_PHASE is 0 after ResetToBitSync (41 R507, 43 R720). -/
@[simp] theorem bitPhase_pllToBitSync (c : Config) : bitPhase c (pllToBitSync c) = 0 := by
  simp [bitPhase, pllToBitSync]

/-- The state from which the sample point is taken outside the hold-off: mode, DET_BIT and the received bytes are as
before, and a bit is sampled exactly when it is due there (43 R713). -/
theorem samplePoint_of_not_due (seed : BitVec 11) {s : State}
    (h : ¬ (s.rx.bitDue = true ∧ bitPhase s.cfg s.pll > s.cfg.bitHoldPhase)) : samplePoint seed s = s := by
  unfold samplePoint
  rw [if_neg h]

theorem samplePoint_of_due (seed : BitVec 11) {s : State}
    (h : s.rx.bitDue = true ∧ bitPhase s.cfg s.pll > s.cfg.bitHoldPhase) :
    samplePoint seed s = sampleBit s.sq.detBit seed
      { s with
        pll := { s.pll with phaseHold := true }
        rx := { s.rx with bitDue := false, bitEvt := true } } := by
  unfold samplePoint
  rw [if_pos h]

/-- The receive registers after the FIND_EOP test of a stored codeword (43 R719). -/
theorem enterFindEop_rx (s : State) :
    (enterFindEop s).rx =
      if s.rx.mode = .findData ∧ s.rx.byteCount.toNat = findEopAfter then { s.rx with mode := .findEop }
      else s.rx := by
  unfold enterFindEop
  split_ifs <;> rfl

/-! ### What a sampled bit does to the PLL and to the counters -/

/-- A completed codeword leaves the PLL alone or resets it (43 R717). -/
theorem codewordDone_pll (seed : BitVec 11) (s : State) :
    (codewordDone seed s).pll = s.pll ∨ (codewordDone seed s).pll = pllToBitSync s.cfg := by
  unfold codewordDone
  split_ifs
  · exact .inr rfl
  · exact .inr rfl
  · exact .inl rfl
  · left; simp

/-- A sampled bit leaves the PLL alone, asserts AGC_HOLD, or resets the PLL (43 R714 to R717). -/
theorem sampleBit_pll (b : Bool) (seed : BitVec 11) (s : State) :
    (sampleBit b seed s).pll = s.pll ∨ (sampleBit b seed s).pll = { s.pll with agcHold := true } ∨
      (sampleBit b seed s).pll = pllToBitSync s.cfg := by
  have data : (sampleData b seed s).pll = s.pll ∨ (sampleData b seed s).pll = pllToBitSync s.cfg := by
    unfold sampleData
    dsimp only
    split_ifs
    · exact codewordDone_pll seed _
    · exact .inl rfl
  unfold sampleBit
  split
  · unfold sampleBitsync
    dsimp only
    split_ifs
    · exact .inr (.inl rfl)
    · exact .inl rfl
  · unfold sampleWordsync
    dsimp only
    split_ifs
    · exact .inl rfl
    · exact .inr (.inr rfl)
    · exact .inl rfl
  · exact data.imp_right .inr
  · exact data.imp_right .inr
  · exact .inl rfl

/-- A sampled bit in FIND_DATA or FIND_EOP (43 R716). -/
theorem sampleBit_of_inData (b : Bool) (seed : BitVec 11) {s : State}
    (h : s.rx.mode = .findData ∨ s.rx.mode = .findEop) : sampleBit b seed s = sampleData b seed s := by
  unfold sampleBit
  rcases h with h | h <;> rw [h]

/-- In the hold-off no bit changes the state (43 R718). -/
theorem sampleBit_of_holdOff (b : Bool) (seed : BitVec 11) {s : State} (h : s.rx.mode = .eopHoldOff) :
    sampleBit b seed s = s := by
  unfold sampleBit
  rw [h]

end Sys2Proof.Machine
end

