-- ==== Sys2Proof/Laws/Commands.lean ====
section
/-! SUPPORT. Every command answers a next state with one response, what a step can do, and runs of commands. -/

namespace Sys2Proof.Machine

/-- What RX_VALIDATE leaves alone, and that it can only clear MSG_PENDING (44 R801). -/
structure ValidateFrame (s t : State) : Prop where
  cfg : t.cfg = s.cfg
  pll : t.pll = s.pll
  sq : t.sq = s.sq
  rx : t.rx = { s.rx with msgPending := false }
  tx : t.tx = s.tx
  crc : t.crc = s.crc
  err : t.err = s.err
  cmdIn : t.cmdIn = s.cmdIn
  responses : t.responses = s.responses

theorem validateMessage_frame (s : State) : ValidateFrame s (validateMessage s) := by
  unfold validateMessage
  split_ifs with hp
  · split <;> constructor <;> simp [clearPending]
  · have e : s.rx.msgPending = false := by simpa using hp
    exact ⟨rfl, rfl, rfl, by rw [← e], rfl, rfl, rfl, rfl, rfl⟩

/-- Every command answers a next state. -/
theorem exec_next (i : Instr) (s : State) : ∃ t, exec i s = .next t := by
  cases i <;> exact ⟨_, rfl⟩

/-- No command changes the configuration (10 R113). -/
theorem exec_cfg {i : Instr} {s t : State} (h : exec i s = .next t) : t.cfg = s.cfg := by
  cases i
  case sample seed x => cases h; simp [(sampleChain_frame seed x s).cfg]
  case rxValidate => cases h; exact (validateMessage_frame s).cfg
  case txbufWr => cases h; split_ifs <;> rfl
  case txEncode => cases h; split_ifs <;> rfl
  case read => cases h; split <;> rfl
  all_goals cases h; rfl

/-- Every command but SAMPLE leaves the slicer alone; RX_RESET writes the receive path as ResetToBitSync does,
RX_VALIDATE can clear MSG_PENDING, and the others write neither the PLL nor a receive register. -/
theorem exec_receive_path {i : Instr} {s t : State} (h : exec i s = .next t) :
    (∃ seed x, i = .sample seed x) ∨
    (t.sq = s.sq ∧
      ((i = .rxReset ∧ t.pll = pllToBitSync s.cfg ∧ t.rx = rxToBitSync s.rx) ∨
       (i = .rxValidate ∧ t.pll = s.pll ∧ t.rx = { s.rx with msgPending := false }) ∨
       (t.pll = s.pll ∧ t.rx = s.rx))) := by
  cases i
  case sample seed x => exact .inl ⟨_, _, rfl⟩
  case rxReset => cases h; exact .inr ⟨rfl, .inl ⟨rfl, rfl, rfl⟩⟩
  case rxValidate =>
    cases h
    have f := validateMessage_frame s
    exact .inr ⟨f.sq, .inr (.inl ⟨rfl, f.pll, f.rx⟩)⟩
  case txbufWr => cases h; right; split_ifs <;> exact ⟨rfl, .inr (.inr ⟨rfl, rfl⟩)⟩
  case txEncode => cases h; right; split_ifs <;> exact ⟨rfl, .inr (.inr ⟨rfl, rfl⟩)⟩
  case read => cases h; right; split <;> exact ⟨rfl, .inr (.inr ⟨rfl, rfl⟩)⟩
  all_goals cases h; exact .inr ⟨rfl, .inr (.inr ⟨rfl, rfl⟩)⟩

/-- A step idles, rejects a word that is no command, or executes the command (40 R400, 30 R305). -/
theorem step_cases {s t : State} (h : step s = .next t) :
    (s.cmdIn = [] ∧ t = s) ∨
    (∃ w rest e, s.cmdIn = w :: rest ∧ decode w = .error e ∧ t = reject .cmd { s with cmdIn := rest }) ∨
    (∃ w rest i, s.cmdIn = w :: rest ∧ decode w = .ok i ∧ exec i { s with cmdIn := rest } = .next t) := by
  unfold step takeCommand at h
  rcases hc : s.cmdIn with _ | ⟨w, rest⟩
  · simp only [hc] at h
    cases h
    exact .inl ⟨rfl, rfl⟩
  · simp only [hc] at h
    rcases hd : decode w with e | i
    · simp only [hd] at h
      cases h
      exact .inr (.inl ⟨w, rest, e, rfl, hd, rfl⟩)
    · simp only [hd] at h
      exact .inr (.inr ⟨w, rest, i, rfl, hd, h⟩)

/-- One command more at the end of a run. -/
theorem execAll_concat (is : List Instr) (i : Instr) {s t : State} (h : execAll is s = .next t) :
    execAll (is ++ [i]) s = exec i t := by
  induction is generalizing s with
  | nil =>
    cases h
    simp only [List.nil_append, execAll]
    generalize exec i _ = o
    cases o <;> rfl
  | cons j is ih =>
    simp only [List.cons_append, execAll] at h ⊢
    rcases hj : exec j s with u | f | r
    · simp only [hj] at h ⊢; exact ih h
    · simp only [hj] at h; cases h
    · simp only [hj] at h; cases h

/-- No run changes the configuration (10 R113). -/
theorem execAll_cfg {is : List Instr} {s t : State} (h : execAll is s = .next t) : t.cfg = s.cfg := by
  induction is generalizing s with
  | nil => cases h; rfl
  | cons i is ih =>
    obtain ⟨u, hu⟩ := exec_next i s
    simp only [execAll, hu] at h
    rw [ih h, exec_cfg hu]

/-- Samples fed to Track in two parts. -/
theorem feedTrack_append (c : Config) (xs ys : List Int) (p : Pll) :
    feedTrack c (xs ++ ys) p = feedTrack c ys (feedTrack c xs p) := by
  unfold feedTrack
  rw [List.foldl_append]

/-- Bits fed in two parts. -/
theorem feedBits_append (seed : BitVec 11) (a b : List Bool) (s : State) :
    feedBits seed (a ++ b) s = feedBits seed b (feedBits seed a s) := by
  unfold feedBits
  rw [List.foldl_append]

end Sys2Proof.Machine
end

