-- ==== Sys2Proof/Laws/Crc.lean ====
section
/-! SUPPORT. CRCEngine: the table's entries and the CRC of a sequence put together (47 R1101 to R1103). -/

namespace Sys2Proof.Machine

theorem buildTable_getElem (i : Byte) : buildTable[i.toNat]'i.isLt = crcEntry i := by
  unfold buildTable
  exact Vector.getElem_ofFn i.isLt

@[simp] theorem crcOf_nil (tab : Vector (BitVec 16) 256) : crcOf tab [] = 0xFFFF#16 := rfl

theorem crcOf_concat (tab : Vector (BitVec 16) 256) (bs : List Byte) (b : Byte) :
    crcOf tab (bs ++ [b]) = crcStep tab (crcOf tab bs) b := by
  unfold crcOf
  rw [List.foldl_append]
  rfl

/-- The last byte of a step only flips the low byte (47 R1102). -/
theorem crcStep_eq (tab : Vector (BitVec 16) 256) (reg : BitVec 16) (b : Byte) :
    crcStep tab reg b = crcStep tab reg 0 ^^^ b.setWidth 16 := by
  unfold crcStep
  simp

end Sys2Proof.Machine
end

