-- ==== Sys2Proof/Laws/Encoding.lean ====
section
/-! SUPPORT. Small lemmas of the encoding: the fields of an encoded command, and the rows of 30 R303. -/

namespace Sys2Proof

/-- The mask of a row without operands keeps the whole word. -/
theorem and_fullMask (w : Word) : w &&& 0xFFFFFFFF#32 = w := by
  rw [show (0xFFFFFFFF#32) = BitVec.allOnes 32 from rfl, BitVec.and_allOnes]

/-- The OP field of a row's match value is the row's OP. -/
theorem opcodeOfOp_matchOf (k : Opcode) : opcodeOfOp (opField (matchOf k)).toNat = some k := by
  cases k <;> rfl

/-- Every mask covers the OP field, so a word that matches a row has its OP (30 R304). -/
theorem opcodeOfOp_of_matches {k : Opcode} {w : Word} (h : w &&& maskOf k = matchOf k) :
    opcodeOfOp (opField w).toNat = some k := by
  have e : opField w = opField (matchOf k) := by
    rw [← h]
    ext j hj
    simp only [opField, BitVec.getElem_extractLsb', BitVec.getLsbD_and]
    cases k <;> (simp only [maskOf]; interval_cases j <;> simp)
  rw [e, opcodeOfOp_matchOf]

/-- An OP of 0x0D or more is no row (30 R303). -/
theorem opcodeOfOp_eq_none {n : Nat} (h : 0x0D ≤ n) : opcodeOfOp n = none := by
  unfold opcodeOfOp
  split <;> first | omega | rfl

/-- What decode does on a word whose OP has a row (30 R304). -/
theorem decode_of_row {w : Word} {k : Opcode} (h : opcodeOfOp (opField w).toNat = some k) :
    decode w = if w &&& maskOf k = matchOf k then .ok (instrOf k w) else .error .reservedField := by
  unfold decode
  rw [h]

/-- What decode does on a reserved OP (30 R305). -/
theorem decode_of_no_row {w : Word} (h : opcodeOfOp (opField w).toNat = none) :
    decode w = .error .reservedOpcode := by
  unfold decode
  rw [h]

end Sys2Proof
end

