-- ==== Sys2Proof/Laws/Framer.lean ====
section
/-! SUPPORT. TransmitFramer: a frame buffer holds a bit stream, and what each Put appends (46 R1001). -/

namespace Sys2Proof.Machine

/-- The buffer holds exactly this bit stream, with zeros behind it (46 R1001, 20 R206). -/
def HoldsStream (f : FrameBuf) (bits : List Bool) : Prop :=
  f.pos = bits.length ∧
    ∀ (k : Nat) (h : k / 16 < 29), f.words[k / 16].getLsbD (15 - k % 16) = bits.getD k false

/-- Reading a stream with one more bit at its end. -/
theorem getD_concat (bits : List Bool) (b : Bool) (k : Nat) :
    (bits ++ [b]).getD k false = if k = bits.length then b else bits.getD k false := by
  simp only [List.getD_eq_getElem?_getD, List.getElem?_append]
  split_ifs with a1 a2 a2
  · omega
  · rfl
  · subst a2; simp
  · obtain ⟨m, hm⟩ : ∃ m, k - bits.length = m + 1 := ⟨k - bits.length - 1, by omega⟩
    rw [hm, List.getElem?_eq_none (show bits.length ≤ k by omega)]
    simp

theorem putBit_holds {f : FrameBuf} {bits : List Bool} (b : Bool) (h : HoldsStream f bits) :
    HoldsStream (putBit b f) (bits ++ [b]) := by
  obtain ⟨h1, h2⟩ := h
  refine ⟨by simp [putBit, h1], ?_⟩
  intro k hk
  rw [getD_concat]
  unfold putBit
  simp only [h1]
  cases b
  · simp only [Bool.false_eq_true, if_false, h2 k hk]
    split_ifs with a
    · subst a; simp
    · rfl
  · simp only [if_true]
    rw [Vector.getElem_setIfInBounds]
    by_cases hq : bits.length / 16 = k / 16
    · rw [if_pos hq]
      have hb : bits.length / 16 < 29 := by omega
      rw [BitVec.getLsbD_or]
      have e1 : (f.words[bits.length / 16]?.getD 0) = f.words[k / 16] := by
        rw [Vector.getElem?_eq_getElem hb]
        simp only [Option.getD_some, hq]
      rw [e1, h2 k hk]
      have e2 : (BitVec.ofNat 16 (2 ^ (15 - bits.length % 16))).getLsbD (15 - k % 16) =
          decide (15 - k % 16 = 15 - bits.length % 16) := by
        rw [BitVec.getLsbD_ofNat, Nat.testBit_two_pow]
        have : 15 - k % 16 < 16 := by omega
        simp [this, eq_comm]
      rw [e2]
      split_ifs with a
      · subst a; simp
      · have : ¬ (15 - k % 16 = 15 - bits.length % 16) := by omega
        simp [this]
    · rw [if_neg hq, h2 k hk, if_neg]
      intro a
      subst a
      exact hq rfl

/-- Put appends the nb low bits of v, most significant first (46 R1001). -/
theorem put_holds {w : Nat} (v : BitVec w) (nb : Nat) {f : FrameBuf} {bits : List Bool}
    (h : HoldsStream f bits) :
    HoldsStream (put v nb f) (bits ++ (List.range nb).map fun i => v.getLsbD (nb - 1 - i)) := by
  induction nb generalizing f bits with
  | zero => simpa [put] using h
  | succ n ih =>
    have e : (List.range (n + 1)).map (fun i => v.getLsbD (n + 1 - 1 - i)) =
        v.getLsbD n :: (List.range n).map fun i => v.getLsbD (n - 1 - i) := by
      rw [List.range_succ_eq_map, List.map_cons, List.map_map]
      congr 1
      apply List.map_congr_left
      intro i hi
      simp only [Function.comp, Nat.succ_eq_add_one]
      congr 1
      omega
    have := ih (putBit_holds (v.getLsbD n) h)
    unfold put
    rw [e]
    simpa using this

/-- Put of a whole word or codeword. -/
theorem put_bitsOf {w : Nat} (v : BitVec w) {f : FrameBuf} {bits : List Bool} (h : HoldsStream f bits) :
    HoldsStream (put v w f) (bits ++ bitsOf v) := by
  have e : bitsOf v = (List.range w).map fun i => v.getLsbD (w - 1 - i) := by
    unfold bitsOf
    apply List.map_congr_left
    intro i hi
    rw [List.mem_range] at hi
    simp [BitVec.getMsbD, hi]
  rw [e]
  exact put_holds v w h

theorem putWords_holds (ws : List (BitVec 16)) {f : FrameBuf} {bits : List Bool} (h : HoldsStream f bits) :
    HoldsStream (putWords ws f) (bits ++ ws.flatMap bitsOf) := by
  induction ws generalizing f bits with
  | nil => simpa [putWords] using h
  | cons w ws ih =>
    have := ih (put_bitsOf w h)
    unfold putWords at this ⊢
    simpa using this

theorem putBytes_holds (c : Config) (bs : List Byte) {f : FrameBuf} {bits : List Bool}
    (h : HoldsStream f bits) : HoldsStream (putBytes c bs f) (bits ++ codewordStream c bs) := by
  induction bs generalizing f bits with
  | nil => simpa [putBytes, codewordStream] using h
  | cons w ws ih =>
    have := ih (put_bitsOf (c.precode w) h)
    unfold putBytes codewordStream at this ⊢
    simpa using this

theorem empty_holds : HoldsStream { words := Vector.replicate 29 0, pos := 0 } [] :=
  ⟨rfl, by intro k hk; simp⟩

theorem length_bitsOf {w : Nat} (v : BitVec w) : (bitsOf v).length = w := by
  simp [bitsOf]

theorem length_codewordStream (c : Config) (bs : List Byte) :
    (codewordStream c bs).length = 11 * bs.length := by
  unfold codewordStream
  induction bs with
  | nil => rfl
  | cons b bs ih =>
    simp only [List.flatMap_cons, List.length_append, ih, length_bitsOf, List.length_cons]
    omega

theorem length_flatMap_bitsOf (ws : List (BitVec 16)) : (ws.flatMap bitsOf).length = 16 * ws.length := by
  induction ws with
  | nil => rfl
  | cons b bs ih =>
    simp only [List.flatMap_cons, List.length_append, ih, length_bitsOf, List.length_cons]
    omega

/-- The length of a frame (46 R1002). -/
theorem length_frameStream (c : Config) (tab : Vector (BitVec 16) 256) (payload : List Byte) :
    (frameStream c tab payload).length = 102 + 11 * payload.length := by
  unfold frameStream
  simp only [List.length_append, length_codewordStream, length_flatMap_bitsOf, Vector.length_toList]
  simp [crcBytes]
  omega

theorem length_txPayload (t : Tx) (len : Nat) (h : len ≤ 32) : (txPayload t len).length = len := by
  unfold txPayload
  simp
  omega

/-- TX_ENCODE of a legal length (46 R1011). -/
theorem exec_txEncode_of_le (s : State) (len : BitVec 8) (h : len.toNat ≤ 32) :
    exec (.txEncode len) s =
      .next (respond (zext (encodeFrame len.toNat s).tx.txMsgLen) (encodeFrame len.toNat s)) := by
  show Host.Outcome.next (if unsignedOperand len > maxTxMsgLen then _ else _) = _
  rw [if_neg]
  · rfl
  · simp only [unsignedOperand, maxTxMsgLen]
    omega

end Sys2Proof.Machine
end

