-- ==== Sys2Proof/Laws/PerInstr.lean ====
section
/-! SUPPORT. Statements about every command, one lemma for each constructor of Instr. -/

namespace Sys2Proof.Laws.EncodeMatchesRow

/-- The word of a command matches its row of 30 R303: its OP is the row's, and under the row's mask it is the row's
match value, so that every reserved field is zero. -/
def Statement (i : Instr) : Prop :=
  opField (encode i) = opField (matchOf (opcodeOf i)) ∧
  encode i &&& maskOf (opcodeOf i) = matchOf (opcodeOf i)

theorem nop : Statement .nop := ⟨rfl, rfl⟩

theorem sample (seed : BitVec 11) (x : BitVec 16) : Statement (.sample seed x) := by
  constructor
  · ext j hj
    simp only [encode, opField, matchOf, opcodeOf, BitVec.getElem_extractLsb', BitVec.getLsbD_append]
    interval_cases j <;> simp
  · ext j hj
    simp only [encode, maskOf, matchOf, opcodeOf, BitVec.getElem_and, BitVec.getElem_append]
    interval_cases j <;> simp

theorem rxReset : Statement .rxReset := ⟨rfl, rfl⟩

theorem rxValidate : Statement .rxValidate := ⟨rfl, rfl⟩

theorem rxAck : Statement .rxAck := ⟨rfl, rfl⟩

theorem txbufWr (idx byte : BitVec 8) : Statement (.txbufWr idx byte) := by
  constructor
  · ext j hj
    simp only [encode, opField, matchOf, opcodeOf, BitVec.getElem_extractLsb', BitVec.getLsbD_append]
    interval_cases j <;> simp
  · ext j hj
    simp only [encode, maskOf, matchOf, opcodeOf, BitVec.getElem_and, BitVec.getElem_append]
    interval_cases j <;> simp

theorem txEncode (len : BitVec 8) : Statement (.txEncode len) := by
  constructor
  · ext j hj
    simp only [encode, opField, matchOf, opcodeOf, BitVec.getElem_extractLsb', BitVec.getLsbD_append]
    interval_cases j <;> simp
  · ext j hj
    simp only [encode, maskOf, matchOf, opcodeOf, BitVec.getElem_and, BitVec.getElem_append]
    interval_cases j <;> simp

theorem txNextBit : Statement .txNextBit := ⟨rfl, rfl⟩

theorem txAckBit : Statement .txAckBit := ⟨rfl, rfl⟩

theorem txSetRx : Statement .txSetRx := ⟨rfl, rfl⟩

theorem crcInit : Statement .crcInit := ⟨rfl, rfl⟩

theorem crcByte (byte : BitVec 8) : Statement (.crcByte byte) := by
  constructor
  · ext j hj
    simp only [encode, opField, matchOf, opcodeOf, BitVec.getElem_extractLsb', BitVec.getLsbD_append]
    interval_cases j <;> simp
  · ext j hj
    simp only [encode, maskOf, matchOf, opcodeOf, BitVec.getElem_and, BitVec.getElem_append]
    interval_cases j <;> simp

theorem read (addr : BitVec 16) : Statement (.read addr) := by
  constructor
  · ext j hj
    simp only [encode, opField, matchOf, opcodeOf, BitVec.getElem_extractLsb', BitVec.getLsbD_append]
    interval_cases j <;> simp
  · ext j hj
    simp only [encode, maskOf, matchOf, opcodeOf, BitVec.getElem_and, BitVec.getElem_append]
    interval_cases j <;> simp

end Sys2Proof.Laws.EncodeMatchesRow
end

