-- ==== Sys2Proof/Laws/ReadMap.lean ====
section
/-! SUPPORT. The READ map: an address of one row, and of no row (20 R202, R203). -/

namespace Sys2Proof.Machine

/-- An address in a row that no other row holds reads as that row says. -/
theorem readMap_of_row {s : State} {r : ReadRow} {a : Nat} (hm : r ∈ readRows s)
    (hu : ∀ r' ∈ readRows s, r'.base ≤ a ∧ a < r'.base + r'.count → r' = r)
    (h : r.base ≤ a ∧ a < r.base + r.count) : readMap s a = some (r.value (a - r.base)) := by
  unfold readMap
  generalize readRows s = rows at hm hu
  induction rows with
  | nil => simp at hm
  | cons x xs ih =>
    rw [List.findSome?_cons]
    by_cases hx : x.base ≤ a ∧ a < x.base + x.count
    · rw [if_pos hx, hu x (by simp) hx]
    · rw [if_neg hx]
      rcases List.mem_cons.mp hm with e | e
      · subst e; exact absurd h hx
      · exact ih e (fun r' hr' => hu r' (by simp [hr']))

/-- An address is unmapped exactly when no row holds it. -/
theorem readMap_eq_none {s : State} {a : Nat} :
    readMap s a = none ↔ ∀ r ∈ readRows s, ¬ (r.base ≤ a ∧ a < r.base + r.count) := by
  unfold readMap
  simp only [List.findSome?_eq_none_iff, ite_eq_right_iff, reduceCtorEq, imp_false]

end Sys2Proof.Machine
end

