-- ==== Sys2Proof/Laws/Validator.lean ====
section
/-! SUPPORT. The validator: what one trial tests, and the two outcomes of RX_VALIDATE (44 R801). -/

namespace Sys2Proof.Machine

theorem trialGood_iff (s : State) {m : Nat} (hm : 2 ≤ m) :
    trialGood s m = true ↔
      crcOf s.crc.crcTab (s.rx.rxbuf.toList.take (m - 2)) = rxByte s (m - 2) ++ rxByte s (m - 1) := by
  unfold trialGood
  simp [hm]

theorem trialGood_of_lt (s : State) {m : Nat} (hm : m < 2) : trialGood s m = false := by
  unfold trialGood
  have : ¬ 2 ≤ m := by omega
  simp [this]

/-- Every byte below p is copied, the others keep their contents (44 R801). -/
theorem copyPayload_getElem (p : Nat) (src dst : Vector Byte 36) (i : Nat) (h : i < 36) :
    (copyPayload p src dst)[i] = if i < p then src[i] else dst[i] := by
  unfold copyPayload
  rw [Vector.getElem_ofFn]
  rfl

theorem validateMessage_of_none (s : State) (h : s.rx.msgPending = false) :
    validateMessage s = { s with validator := { s.validator with rxResult := 0 } } := by
  unfold validateMessage
  rw [if_neg (by simp [h])]

theorem validateMessage_of_good {s : State} (h : s.rx.msgPending = true) {k : Nat}
    (hg : goodTrial s = some k) :
    validateMessage s = clearPending (acceptMessage (s.rx.byteCount.toNat - k - 2) s) := by
  unfold validateMessage
  rw [if_pos h, hg]

theorem validateMessage_of_bad {s : State} (h : s.rx.msgPending = true) (hg : goodTrial s = none) :
    validateMessage s = clearPending (dropMessage s) := by
  unfold validateMessage
  rw [if_pos h, hg]

end Sys2Proof.Machine
end

