-- ==== Sys2Proof/Tests/Slice0.lean ====
section
/-! SUPPORT. Tests: the checks of WellFormed refuse, the words of the opcode map decode, one step of each command on the
configuration TC1 of 95, and for each statement with hypotheses an input that meets them. -/

namespace Sys2Proof.Tests

open Sys2Proof.Machine

/-! ### WellFormed: an ill-formed term for each check -/

theorem test_tc1_ranges : Config.tc1.RangesOk := by decide

theorem test_tc1_wellFormed : Config.tc1.WellFormed := (default : BuiltConfig).wellFormed

theorem test_oscillator_refuses :
    ¬ { Config.tc1 with sineTable := [0, 1, 0, -1, 0] }.OscillatorOk ∧
    ¬ { Config.tc1 with sineTable := [], eta0 := 0 }.OscillatorOk ∧
    ¬ { Config.tc1 with eta0 := 16384 }.OscillatorOk ∧
    ¬ { Config.tc1 with cyclesPerBit := 0 }.OscillatorOk ∧
    ¬ { Config.tc1 with cyclesPerBit := 256 }.OscillatorOk ∧
    ¬ { Config.tc1 with corrWindow := 0 }.OscillatorOk ∧
    ¬ { Config.tc1 with corrWindow := 256 }.OscillatorOk := by decide

theorem test_agc_refuses :
    ¬ { Config.tc1 with gainTable := [2, 1], agcInitIndex := 0 }.AgcOk ∧
    ¬ { Config.tc1 with gainTable := [], agcInitIndex := 0 }.AgcOk ∧
    ¬ { Config.tc1 with gainShift := 32 }.AgcOk ∧
    ¬ { Config.tc1 with agcInitIndex := 17 }.AgcOk ∧
    ¬ { Config.tc1 with agcOvfDec := 0 }.AgcOk ∧
    ¬ { Config.tc1 with agcOvfDec := 256 }.AgcOk ∧
    ¬ { Config.tc1 with agcThreshold := 2 ^ 47 }.AgcOk := by decide

theorem test_agc_refuses_long_table :
    ¬ { Config.tc1 with gainTable := List.replicate 257 1 }.AgcOk := by
  rintro ⟨-, -, h, -⟩
  unfold Config.gainLen at h
  rw [List.length_replicate] at h
  omega

theorem test_loop_refuses :
    ¬ { Config.tc1 with kpShift := 64 }.LoopOk ∧ ¬ { Config.tc1 with kiShift := 64 }.LoopOk ∧
    ¬ { Config.tc1 with intLimit := 2 ^ 31 }.LoopOk := by decide

theorem test_slicer_refuses :
    ¬ { Config.tc1 with thresholdV := 2 ^ 47 }.SlicerOk ∧
    ¬ { Config.tc1 with thresholdT := 65535 }.SlicerOk := by decide

theorem test_receiver_refuses :
    ¬ { Config.tc1 with bitHoldPhase := 15 }.ReceiverOk ∧
    ¬ { Config.tc1 with bitPeriodSamples := 65536 }.ReceiverOk ∧
    ¬ { Config.tc1 with bitTol := 65536 }.ReceiverOk ∧
    ¬ { Config.tc1 with findWordsyncTimeout := 65535 }.ReceiverOk ∧
    ¬ { Config.tc1 with findEopTimeout := 65535 }.ReceiverOk := by decide

/-- 45 R902 condition 2: the byte in the top bits. -/
theorem test_precode_refuses_byte :
    ¬ { Config.tc1 with precodeTable := Config.tc1.precodeTable.set 0 0x00A }.PrecodeOk :=
  fun h => absurd (h 0).1 (by simp)

/-- 45 R902 condition 3: the codeword of 0xE6 may not be the EOP. -/
theorem test_precode_refuses_eop :
    ¬ { Config.tc1 with precodeTable := Config.tc1.precodeTable.set 0xE6 0x733 }.PrecodeOk :=
  fun h => absurd (h 0xE6).2 (by simp)

theorem test_header_refuses : ¬ { Config.tc1 with txHeader := #v[0xAAAA, 0x567B, 0xAAAA] }.HeaderOk := by
  decide

/-- The second form of 46 R1004 is accepted, a trailer without an EOP is not. -/
theorem test_trailer_refuses :
    ¬ { Config.tc1 with txTrailer := #v[0, 0] }.TrailerOk ∧
    { Config.tc1 with txTrailer := #v[0x001C, 0xCC00] }.TrailerOk := by decide

/-! ### Decode: the words of 30 R301 and R303, field by field -/

theorem test_decode_nop : decode 0b00000_000_00000000_00000000_00000000#32 = .ok .nop := rfl
theorem test_decode_sample :
    decode 0b00001_00000000101_1111111111111111#32 = .ok (.sample 5 0xFFFF) := rfl
theorem test_decode_rxReset : decode 0b00010_000_00000000_00000000_00000000#32 = .ok .rxReset := rfl
theorem test_decode_rxValidate : decode 0b00011_000_00000000_00000000_00000000#32 = .ok .rxValidate := rfl
theorem test_decode_rxAck : decode 0b00100_000_00000000_00000000_00000000#32 = .ok .rxAck := rfl
theorem test_decode_txbufWr :
    decode 0b00101_000_00011111_00000000_01000010#32 = .ok (.txbufWr 31 0x42) := rfl
theorem test_decode_txEncode :
    decode 0b00110_000_00100000_00000000_00000000#32 = .ok (.txEncode 32) := rfl
theorem test_decode_txNextBit : decode 0b00111_000_00000000_00000000_00000000#32 = .ok .txNextBit := rfl
theorem test_decode_txAckBit : decode 0b01000_000_00000000_00000000_00000000#32 = .ok .txAckBit := rfl
theorem test_decode_txSetRx : decode 0b01001_000_00000000_00000000_00000000#32 = .ok .txSetRx := rfl
theorem test_decode_crcInit : decode 0b01010_000_00000000_00000000_00000000#32 = .ok .crcInit := rfl
theorem test_decode_crcByte :
    decode 0b01011_000_00000000_00000000_10000001#32 = .ok (.crcByte 0x81) := rfl
theorem test_decode_read :
    decode 0b01100_000_00000000_00000101_00000111#32 = .ok (.read 0x0507) := rfl

/-- Reserved fields of each format, and reserved OPs (30 R305). -/
theorem test_decode_refuses :
    decode 0x00000001 = .error .reservedField ∧ decode 0x07000000 = .error .reservedField ∧
    decode 0x29000042 = .error .reservedField ∧ decode 0x28000142 = .error .reservedField ∧
    decode 0x31010000 = .error .reservedField ∧ decode 0x30010001 = .error .reservedField ∧
    decode 0x58000100 = .error .reservedField ∧ decode 0x60010000 = .error .reservedField ∧
    decode 0x68000000 = .error .reservedOpcode ∧ decode 0xF8000000 = .error .reservedOpcode := by decide

theorem test_decodeTableWord :
    decodeTableWord 32 0x0FFF1F40 = some (.sample 2047 8000) ∧ decodeTableWord 32 0x68000000 = none := by
  decide

/-! ### One step of each command, on TC1 (95) -/

/-- The state after hardware reset under TC1. -/
def tcReset : State := State.resetWith Config.tc1

/-- The state after a command. -/
def after (i : Instr) (s : State) : State :=
  match exec i s with
  | .next t => t
  | _ => s

/-- The last response. -/
def answer (s : State) : Word := s.responses.getLastD 0xDEADBEEF

/-- 40 R404. -/
theorem test_nop : answer (after .nop tcReset) = 0 := by decide

/-- 40 R410: SAMPLE 0, 0 after reset leaves PHASE = 4096 and GAIN_INDEX = 9, STATUS = 0. -/
theorem test_sample_zero :
    (after (.sample 0 0) tcReset).pll.phase = 4096 ∧ (after (.sample 0 0) tcReset).pll.gainIndex = 9 ∧
    answer (after (.sample 0 0) tcReset) = 0 := by decide +kernel

/-- 43 R721: RX_RESET leaves BYTE_COUNT. -/
theorem test_rxReset :
    (after .rxReset { tcReset with rx := { tcReset.rx with mode := .findData, byteCount := 5 } }).rx.mode
      = .findBitsync ∧
    (after .rxReset { tcReset with rx := { tcReset.rx with mode := .findData, byteCount := 5 } }).rx.byteCount
      = 5 := by decide

/-- The received message 0x42, 0xE1, 0xB2 of 44 R801. -/
def pendingMessage : State :=
  { tcReset with rx := { tcReset.rx with
      msgPending := true, byteCount := 3,
      rxbuf := ((tcReset.rx.rxbuf.set 0 0x42).set 1 0xE1).set 2 0xB2 } }

/-- 44 R801: the message, and the same with a corrupted byte. -/
theorem test_rxValidate :
    answer (after .rxValidate pendingMessage) = 0x101 ∧
    (after .rxValidate pendingMessage).validator.rxout[0] = 0x42 ∧
    answer (after .rxValidate { pendingMessage with rx := { pendingMessage.rx with
      rxbuf := pendingMessage.rx.rxbuf.set 0 0x43 } }) = 2 := by decide +kernel

/-- 44 R802. -/
theorem test_rxAck : (after .rxAck { tcReset with validator :=
    { tcReset.validator with rxValid := true } }).validator.rxValid = false := by decide

/-- 46 R1010, and the index past the end. -/
theorem test_txbufWr :
    (after (.txbufWr 0 0x42) tcReset).tx.txuser[0] = 0x42 ∧ (after (.txbufWr 32 0x42) tcReset).err = 4 := by
  decide

/-- 46 R1011: TXUSER[0] = 0x42, TX_ENCODE 1. -/
theorem test_txEncode :
    answer (after (.txEncode 1) (after (.txbufWr 0 0x42) tcReset)) = 113 ∧
    (after (.txEncode 1) (after (.txbufWr 0 0x42) tcReset)).tx.txdata.toList.take 8 =
      [0xAAAA, 0xAAAA, 0x567B, 0x425C, 0x2AC9, 0x733E, 0x6600, 0] := by decide +kernel

theorem test_txEncode_len : (after (.txEncode 33) tcReset).err = 2 := by decide

/-- 46 R1012: the first bit of 0xAAAA. -/
theorem test_txNextBit : answer (after .txNextBit { tcReset with tx := { tcReset.tx with
    txdata := tcReset.tx.txdata.set 0 0xAAAA, txMsgLen := 113 } }) = 1 := by decide

/-- 46 R1012: index 113 of a 113-bit frame is answered 0b10. -/
theorem test_txNextBit_done : answer (after .txNextBit { tcReset with tx := { tcReset.tx with
    txMsgLen := 113, txBitNum := 113 } }) = 2 := by decide

/-- 46 R1013. -/
theorem test_txAckBit : (after .txAckBit { tcReset with tx := { tcReset.tx with
    txBitPending := true, txBit := true } }).tx.txBit = true ∧
  (after .txAckBit { tcReset with tx := { tcReset.tx with
    txBitPending := true, txBit := true } }).tx.txBitPending = false := by decide

/-- 46 R1014. -/
theorem test_txSetRx : (after .txSetRx { tcReset with tx := { tcReset.tx with
    txMode := true } }).tx.txMode = false := by decide

/-- 47 R1104. -/
theorem test_crcInit : answer (after .crcInit tcReset) = 0xFFFF := by decide

/-- 47 R1105: CRC_INIT, CRC_BYTE 0x42 returns 0xE1B2. -/
theorem test_crcByte : answer (after (.crcByte 0x42) (after .crcInit tcReset)) = 0xE1B2 := by decide +kernel

/-- 47 R1101 and R1103. -/
theorem test_crcValues :
    (buildTable[1] = 0x1021 ∧ buildTable[0x10] = 0x1231 ∧ buildTable[0x80] = 0x9188 ∧
      buildTable[0xFF] = 0x1EF0) ∧
    crcOf buildTable [] = 0xFFFF ∧ crcOf buildTable [0xE1, 0xB2] = 0xFCBD ∧
    crcOf buildTable [0x31, 0x32, 0x33, 0x34, 0x35, 0x36, 0x37, 0x38, 0x39] = 0xA69D := by decide +kernel

/-- 40 R405: READ CRCTAB+1, and the unmapped address 0x0204 of W = 4. -/
theorem test_read : answer (after (.read 0x0101) tcReset) = 0x1021 ∧ (after (.read 0x0204) tcReset).err = 8 := by
  decide +kernel

/-- 45 R904. -/
theorem test_precodeTc1 : Config.tc1.precode 0x42 = 0x212 ∧ Config.tc1.precode 0xE6 = 0x736 ∧
    Config.tc1.precode 0x01 = 0x00E := by decide +kernel

/-- 42 R600: three values of 2^27 flip DET_BIT on the third. -/
theorem test_square : feedSquare Config.tc1 [2 ^ 27, 2 ^ 27, 2 ^ 27] squarerZero =
    { detBit := true, hystCnt := 0, trans := true } := by decide

/-! ### Inputs that meet the hypotheses of the statements -/

/-- The reset state with one command word waiting. -/
def waiting (w : Word) : State := { tcReset with cmdIn := [w] }

/-- The receive registers of the reset state under TC1, changed. -/
def withRx (f : Rx → Rx) : State := { tcReset with rx := f tcReset.rx }

theorem witness_DecodeOfEncodeIsTheCommand : (Instr.sample 2047 0x8000).wellFormed = true := rfl

theorem witness_EncodeOfDecodeIsTheWord : decode 0x0FFF8000 = .ok (.sample 2047 0x8000) := rfl

theorem witness_StepRunsTheDecodedCommand :
    ((waiting 0x0805FFFF).cmdIn = 0x0805FFFF :: [] ∧ decode 0x0805FFFF = .ok (.sample 5 0xFFFF)) ∧
    tcReset.cmdIn = [] := ⟨⟨rfl, rfl⟩, rfl⟩

theorem witness_IllegalWordsAreRejected :
    ((waiting 0x68000000).cmdIn = 0x68000000 :: [] ∧ 0x0D ≤ ((0x68000000#32).extractLsb' 27 5).toNat) ∧
    ((waiting 0xF8000000).cmdIn = 0xF8000000 :: [] ∧ 0x0D ≤ ((0xF8000000#32).extractLsb' 27 5).toNat) ∧
    ((waiting 0x60010000).cmdIn = 0x60010000 :: [] ∧
      opcodeOfOp ((0x60010000#32).extractLsb' 27 5).toNat = some .read ∧
      0x60010000#32 &&& maskOf .read ≠ matchOf .read) := by decide +kernel

theorem witness_EveryCommandReturnsOneResponse : (waiting 0xFFFFFFFF).cmdIn = 0xFFFFFFFF :: [] := rfl

theorem lineSum_zero : lineSum (List.replicate 4 0#32) = 0 := by decide

/-- The PLL registers after reset under TC1, with either hold, keep the ranges and sums. -/
theorem tcPll_inv (agcHold phaseHold : Bool) :
    PllInv Config.tc1 { tcReset.pll with agcHold := agcHold, phaseHold := phaseHold } := by
  have z : ∀ v ∈ List.replicate 4 0#32, v.toInt.natAbs ≤ 2 ^ 30 := by simp
  exact ⟨show 0 < 16384 by decide, show 0 < 4 by decide, show bitPhase Config.tc1 tcReset.pll < 16 by decide,
    show 0 < 4 by decide, show 8 < 17 by decide, rfl, rfl, z, z, lineSum_zero.symm, lineSum_zero.symm,
    Nat.zero_le _, Nat.zero_le _, rfl, Nat.zero_le _, show 0 < 2 ^ 53 by norm_num, rfl⟩

theorem witness_EveryStepKeepsThePllInvariant :
    (waiting 0x08001F40).cfg.RangesOk ∧ PllInv (waiting 0x08001F40).cfg (waiting 0x08001F40).pll ∧
    step (waiting 0x08001F40) = .next (after (.sample 0 8000) tcReset) :=
  ⟨test_tc1_ranges, tcPll_inv false false, rfl⟩

/-- The receiver's relations hold after reset under TC1. -/
theorem tcRx_inv (w : Word) : RxInv (waiting w) := by
  have d : ¬ InData RxMode.findBitsync := by decide
  refine ⟨Nat.zero_le _, Nat.zero_le _, fun h => absurd h d, fun h => absurd h d, fun _ => rfl,
    fun h => (by cases h), fun h => absurd h d, Nat.zero_le _, fun _ => rfl, fun h => (by cases h),
    fun h => (by cases h), fun _ => rfl, ⟨fun h => (by cases h), fun h => absurd rfl h⟩,
    fun h => (by cases h.1), fun h => absurd rfl h, Nat.zero_le _, Nat.zero_le _⟩

theorem witness_EveryStepKeepsTheReceiverInvariant :
    (waiting 0x08001F40).cfg.RangesOk ∧ RxInv (waiting 0x08001F40) ∧
    step (waiting 0x08001F40) = .next (after (.sample 0 8000) tcReset) :=
  ⟨test_tc1_ranges, tcRx_inv _, rfl⟩

theorem txZero_inv : TxInv txZero := by
  refine ⟨.inl rfl, fun i _ => ?_⟩
  have e : ∀ j : Nat, (Vector.replicate 29 0#16)[j]?.getD 0#16 = 0 := by
    intro j
    by_cases h : j < 29 <;> simp [h]
  unfold servedBit
  simp [txZero, e]

theorem witness_EveryStepKeepsTheSlicerFrameAndCrcInvariants :
    SlicerInv (waiting 0x30010000) ∧ TxInv (waiting 0x30010000).tx ∧ CrcInv (waiting 0x30010000) ∧
    step (waiting 0x30010000) = .next (after (.txEncode 1) tcReset) :=
  ⟨by decide, txZero_inv, rfl, rfl⟩

/-- No wrap from PHASE = 0, and a wrap from PHASE = 12288. -/
theorem witness_TrackAdvancesPhaseAndCycle :
    Config.tc1.RangesOk ∧
    ((4096 : Nat) : Int) = ((tcReset.pll.phase.toNat : Int) + Config.tc1.eta0 + tcReset.pll.eta.toInt) %
      ((Config.tc1.sineLen * 1024 : Nat) : Int) ∧ 1 = (tcReset.pll.cycle.toNat + 1) % Config.tc1.cyclesPerBit ∧
    ((0 : Nat) : Int) = (((12288#32).toNat : Int) + Config.tc1.eta0 + tcReset.pll.eta.toInt) %
      ((Config.tc1.sineLen * 1024 : Nat) : Int) ∧ 0 = ((3#8).toNat + 1) % Config.tc1.cyclesPerBit := by decide

theorem witness_AgcPrescaleLowersTheGainUntilItFits :
    Config.tc1.agcEnable = true ∧ 1 ≤ Config.tc1.agcOvfDec := by decide

theorem witness_TrackCorrelatesExactly :
    Config.tc1.RangesOk ∧ PllInv Config.tc1 tcReset.pll := ⟨test_tc1_ranges, tcPll_inv false false⟩

/-- Both values of PHASE_HOLD. -/
theorem witness_TrackFiltersThePhaseErrorExactly :
    Config.tc1.RangesOk ∧ PllInv Config.tc1 { tcReset.pll with agcHold := false, phaseHold := false } ∧
    PllInv Config.tc1 { tcReset.pll with agcHold := true, phaseHold := true } :=
  ⟨test_tc1_ranges, tcPll_inv false false, tcPll_inv true true⟩

/-- The AGC disabled, held, and running. -/
theorem witness_TrackFeedsTheGainBack :
    ({ Config.tc1 with agcEnable := false }.RangesOk ∧ { Config.tc1 with agcEnable := false }.agcEnable = false ∧
      tcReset.pll.gainIndex.toNat < { Config.tc1 with agcEnable := false }.gainLen) ∧
    (Config.tc1.RangesOk ∧ Config.tc1.agcEnable = true ∧ tcReset.pll.gainIndex.toNat < Config.tc1.gainLen ∧
      tcReset.pll.agcHold = false ∧ { tcReset.pll with agcHold := true }.agcHold = true) := by decide

/-- A register file of TC1, and exactly W = 4 zero samples. -/
theorem witness_SilenceEmptiesTheCorrelationWindow :
    Config.tc1.RangesOk ∧ PllInv Config.tc1 tcReset.pll ∧
    tcReset.cfg.corrWindow ≤ [(0 : BitVec 11), 1, 2, 2047].length :=
  ⟨test_tc1_ranges, tcPll_inv false false, by decide⟩

/-- THRESHOLD_T and THRESHOLD_T + 1 values one past the threshold, and values at the threshold on either side. -/
theorem witness_SlicerFlipsAfterThresholdTSamples :
    Config.tc1.thresholdT ≤ 65534 ∧ squarerZero.hystCnt = 0 ∧
    (∀ v ∈ [(2 : Int) ^ 26 + 1, 2 ^ 26 + 1, 2 ^ 26 + 1],
      if squarerZero.detBit then v < -(Config.tc1.thresholdV : Int) else (Config.tc1.thresholdV : Int) < v) ∧
    [(2 : Int) ^ 26 + 1, 2 ^ 26 + 1].length = Config.tc1.thresholdT ∧
    [(2 : Int) ^ 26 + 1, 2 ^ 26 + 1, 2 ^ 26 + 1].length = Config.tc1.thresholdT + 1 ∧
    (if squarerZero.detBit then -(Config.tc1.thresholdV : Int) ≤ 2 ^ 26
      else 2 ^ 26 ≤ (Config.tc1.thresholdV : Int)) ∧
    (if { squarerZero with detBit := true }.detBit then -(Config.tc1.thresholdV : Int) ≤ -2 ^ 26
      else -2 ^ 26 ≤ (Config.tc1.thresholdV : Int)) := by decide

theorem witness_TransMarksTheFlip :
    exec (.sample 0 8000) tcReset = .next (after (.sample 0 8000) tcReset) := rfl

theorem witness_SampleRunsTheReceiveChain :
    ∃ p : Pll, p = (track tcReset.cfg (8000#16).toInt tcReset.pll).1 := ⟨_, rfl⟩

/-- A due bit past the hold phase (CYCLE = 3), and one that is not (CYCLE = 0). -/
theorem witness_BitWrapArmsTheSample :
    (RxMode.findData ≠ .findBitsync ∧ RxMode.findData ≠ .eopHoldOff ∧ true = (true || false) ∧
      (1#16).toNat = min ((0#16).toNat + 1) 65535 ∧
      bitPhase Config.tc1 { tcReset.pll with cycle := 3 } > Config.tc1.bitHoldPhase) ∧
    ¬ (bitPhase Config.tc1 tcReset.pll > Config.tc1.bitHoldPhase) := by decide

/-- SINCE_TRANS inside the window at both bounds and one sample outside it, and both sides of the hold phase. -/
theorem witness_TransitionRealignsTheBitClock :
    (tcReset.rx.mode = .findBitsync ∧ { squarerZero with trans := true }.trans = true ∧
      14 = min ((13#16).toNat + 1) 65535 ∧
      ¬ (14 + Config.tc1.bitTol < Config.tc1.bitPeriodSamples ∨
        Config.tc1.bitPeriodSamples + Config.tc1.bitTol < 14) ∧
      ¬ (18 + Config.tc1.bitTol < Config.tc1.bitPeriodSamples ∨
        Config.tc1.bitPeriodSamples + Config.tc1.bitTol < 18) ∧
      (19 + Config.tc1.bitTol < Config.tc1.bitPeriodSamples ∨
        Config.tc1.bitPeriodSamples + Config.tc1.bitTol < 19)) ∧
    tcReset.pll.phase.toNat / 1024 / 4 ≤ Config.tc1.bitHoldPhase ∧
    { Config.tc1 with bitHoldPhase := 0 }.bitHoldPhase < (4096#32).toNat / 1024 / 4 := by decide

theorem witness_BitsyncSamplesOnlyArmedBits :
    tcReset.rx.mode = .findBitsync ∧ tcReset.sq.trans = false ∧
    (1#16).toNat = min (tcReset.rx.sinceTrans.toNat + 1) 65535 := by decide

/-- A receiver in the hold-off with a pending message. -/
def holding (h : BitVec 16) : State :=
  withRx fun r => { r with mode := .eopHoldOff, holdOff := h, msgPending := true, byteCount := 5 }

/-- HOLD_OFF = −1, 0 and 1 expire and 2 and 2047 wait; HOLD_OFF = 0 with one sample, and HOLD_OFF = 2047 with 2046 and
2047. -/
theorem witness_HoldOffLastsItsSeed :
    ((holding 0).rx.mode = .eopHoldOff ∧ -1 ≤ (holding (-1)).rx.holdOff.toInt ∧
      (holding (-1)).rx.holdOff.toInt ≤ 1 ∧ (holding 0).rx.holdOff.toInt ≤ 1 ∧
      (holding 1).rx.holdOff.toInt ≤ 1 ∧ 1 < (holding 2).rx.holdOff.toInt ∧
      1 < (holding 2047).rx.holdOff.toInt) ∧
    (0 = (holding 0).rx.holdOff.toNat ∧ [((0 : BitVec 11), (0 : BitVec 16))].length = max 0 1) ∧
    (2047 = (holding 2047).rx.holdOff.toNat ∧
      (List.replicate 2046 ((0 : BitVec 11), (0 : BitVec 16))).length < max 2047 1 ∧
      (List.replicate 2047 ((0 : BitVec 11), (0 : BitVec 16))).length = max 2047 1) :=
  ⟨by decide, by decide, rfl, by rw [List.length_replicate]; omega, by rw [List.length_replicate]; omega⟩

/-- The last bit of the pattern, and another bit. -/
theorem witness_BitsyncPatternStartsWordsync :
    (withRx fun r => { r with detData := 0x5555 }).rx.mode = .findBitsync ∧
    (0xAAAA#16).toNat = (2 * (0x5555#16).toNat + false.toNat) % 2 ^ 16 ∧
    (0xAAAB#16).toNat = (2 * (0x5555#16).toNat + true.toNat) % 2 ^ 16 ∧ 0xAAAB#16 ≠ 0xAAAA#16 := by decide

/-- Both patterns, and no pattern on bit FIND_WORDSYNC_TIMEOUT and on the next. -/
theorem witness_WordsyncPatternOrTimeout :
    (withRx fun r => { r with mode := .findWordsync }).rx.mode = .findWordsync ∧
    (0x567B#16).toNat = (2 * (0x2B3D#16).toNat + true.toNat) % 2 ^ 16 ∧
    (0xA984#16).toNat = (2 * (0x54C2#16).toNat + false.toNat) % 2 ^ 16 ∧
    ((0#16).toNat = (2 * (0#16).toNat + false.toNat) % 2 ^ 16 ∧ 0#16 ≠ 0x567B#16 ∧ 0#16 ≠ 0xA984#16 ∧
      64#16 = 63#16 + 1 ∧ (64#16).toNat ≤ Config.tc1.findWordsyncTimeout ∧
      65#16 = 64#16 + 1 ∧ Config.tc1.findWordsyncTimeout < (65#16).toNat) := by decide

theorem witness_ElevenBitsMakeACodeword :
    InData (withRx fun r => { r with mode := .findEop, bitCount := 11 }).rx.mode ∧
    (withRx fun r => { r with mode := .findEop, bitCount := 11 }).rx.bitCount = 11 ∧
    (withRx fun r => { r with mode := .findEop, bitCount := 11 }).rx.detData = 0 := by decide

/-- Codeword 41 past the timeout of 40, byte 36, and an EOP after 35 bytes. -/
theorem witness_CodewordEndsTheMessage :
    Config.tc1.findEopTimeout < (41#16).toNat ∧
    ((40#16).toNat ≤ Config.tc1.findEopTimeout ∧ 36 ≤ (36#8).toNat) ∧
    ((40#16).toNat ≤ Config.tc1.findEopTimeout ∧ (35#8).toNat < 36 ∧ 0x0733#16 = 0x0733#16) := by decide

theorem witness_CodewordIsStored :
    (35#8).toNat < 36 ∧ (40#16).toNat ≤ Config.tc1.findEopTimeout ∧ 0x0212#16 ≠ 0x0733#16 ∧
    (0x42#8) = (0x0212#16).extractLsb' 3 8 := by decide

theorem witness_WordsyncTimeoutBoundary :
    { Config.tc1 with findWordsyncTimeout := 2 }.findWordsyncTimeout ≤ 65534 ∧
    (withRx fun r => { r with mode := .findWordsync }).rx.mode = .findWordsync ∧
    (withRx fun r => { r with mode := .findWordsync }).rx.modeCounter = 0 ∧
    [false, true, false].length = { Config.tc1 with findWordsyncTimeout := 2 }.findWordsyncTimeout + 1 ∧
    (∀ k ≤ [false, true, false].length, 1 ≤ k →
      ([false, true, false].take k).foldl shiftIn 0#16 ≠ 0x567B#16 ∧
      ([false, true, false].take k).foldl shiftIn 0#16 ≠ 0xA984#16) := by decide +kernel

/-- FIND_EOP_TIMEOUT = 36 and 37, both with 37 codewords. -/
theorem witness_EopTimeoutBoundary :
    ((withRx fun r => { r with mode := .findData, bitCount := 11 }).rx.mode = .findData ∧
      (withRx fun r => { r with mode := .findData, bitCount := 11 }).rx.modeCounter = 0 ∧
      (withRx fun r => { r with mode := .findData, bitCount := 11 }).rx.byteCount = 0 ∧
      (withRx fun r => { r with mode := .findData, bitCount := 11 }).rx.bitCount = 11 ∧
      (withRx fun r => { r with mode := .findData, bitCount := 11 }).rx.detData = 0) ∧
    37 = min { Config.tc1 with findEopTimeout := 36 }.findEopTimeout 36 + 1 ∧
    37 = min { Config.tc1 with findEopTimeout := 37 }.findEopTimeout 36 + 1 ∧
    (List.replicate 37 (0#11)).length = 37 ∧ (∀ w ∈ List.replicate 37 (0#11), w ≠ 0x733#11) :=
  ⟨⟨rfl, rfl, rfl, rfl, rfl⟩, rfl, rfl, rfl, by simp⟩

theorem witness_RxResetReturnsToBitsync :
    (waiting 0x10000001).cmdIn = 0x10000001 :: [] ∧ (0x10000001#32).extractLsb' 27 5 = 0x02#5 ∧
    0x10000001#32 ≠ 0x10000000#32 := by decide

theorem witness_ValidateWithNothingPending : tcReset.rx.msgPending = false := rfl

/-- No payload and no artifact (the CRC of nothing is 0xFFFF), and no payload behind two artifacts. -/
theorem witness_ValidateAcceptsTheFirstGoodTrial :
    (2 = 0 + 2 + 0 ∧ (2#8).toNat ≤ 36 ∧ crcOf buildTable [] = 0xFF#8 ++ 0xFF#8) ∧
    (4 = 0 + 2 + 2 ∧ ∀ j < 2, crcOf buildTable ([(0xFF : Byte), 0xFF, 0, 0].take (0 + 2 - j)) ≠
      [(0xFF : Byte), 0xFF, 0, 0].getD (0 + 2 - j) 0 ++ [(0xFF : Byte), 0xFF, 0, 0].getD (0 + 2 - j + 1) 0) := by
  decide +kernel

/-- A pending message of no byte, and one of two zero bytes. -/
theorem witness_ValidateDropsACorruptedMessage :
    (∀ m : Nat, 2 ≤ m → m ≤ (0#8).toNat → (0#8).toNat ≤ m + 2 →
      crcOf buildTable (tcReset.rx.rxbuf.toList.take (m - 2)) ≠
        tcReset.rx.rxbuf[m - 2]?.getD 0 ++ tcReset.rx.rxbuf[m - 1]?.getD 0) ∧
    crcOf buildTable (tcReset.rx.rxbuf.toList.take (2 - 2)) ≠
      tcReset.rx.rxbuf[2 - 2]?.getD 0 ++ tcReset.rx.rxbuf[2 - 1]?.getD 0 := by
  refine ⟨fun m h1 h2 _ => ?_, by decide +kernel⟩
  simp at h2
  omega

theorem witness_RxAckClearsRxValid :
    (waiting 0x20000001).cmdIn = 0x20000001 :: [] ∧ (0x20000001#32).extractLsb' 27 5 = 0x04#5 ∧
    0x20000001#32 ≠ 0x20000000#32 := by decide

theorem witness_ParityCheckIsSelfConsistent : Config.tc1.PrecodeOk := test_tc1_wellFormed.2.1

theorem witness_FramingRoundTrip :
    tcReset.cfg.WellFormed ∧ tcReset.cfg.txHeader = #v[0xAAAA, 0xAAAA, 0x567B] ∧
    tcReset.cfg.txTrailer = #v[0xE67C, 0xCC00] ∧ 32 = (32#8).toNat ∧
    32 ≤ tcReset.cfg.findWordsyncTimeout ∧ 32 + 3 ≤ tcReset.cfg.findEopTimeout ∧
    tcReset.rx.mode = .findBitsync ∧ tcReset.rx.detData = 0 ∧
    exec (.txEncode 32) tcReset = .next (after (.txEncode 32) tcReset) :=
  ⟨test_tc1_wellFormed, rfl, rfl, rfl, by decide, by decide, rfl, rfl, rfl⟩

/-- The last index, the first past it, and a reserved bit. -/
theorem witness_TxbufWrWritesOneByte :
    (31#8).toNat < 32 ∧ 31 < (32#8).toNat ∧
    ((waiting 0x28000142).cmdIn = 0x28000142 :: [] ∧ (0x28000142#32).extractLsb' 27 5 = 0x05#5 ∧
      0x28000142#32 &&& 0xFF00FF00#32 ≠ 0x28000000#32) := by decide

theorem witness_TxEncodeSetsLengthAndCursor : (32#8).toNat ≤ 32 ∧ 32 < (33#8).toNat := by decide

theorem witness_TxdataHoldsTheFrameStream :
    463 / 16 < 29 ∧ (32#8).toNat ≤ 32 ∧ exec (.txEncode 32) tcReset = .next (after (.txEncode 32) tcReset) :=
  ⟨by decide, by decide, rfl⟩

/-- The last bit of word 28 and the first past it. -/
theorem witness_TxNextBitServesTheCursor :
    (463 = (463#16).toNat ∧ 463 / 16 < 29 ∧ false = (0#16).getLsbD (15 - 463 % 16)) ∧
    (464 = (464#16).toNat ∧ 29 ≤ 464 / 16) ∧
    ((waiting 0x38000001).cmdIn = 0x38000001 :: [] ∧ (0x38000001#32).extractLsb' 27 5 = 0x07#5 ∧
      0x38000001#32 ≠ 0x38000000#32) := by decide

theorem witness_TransmissionServesTheFrame : (32#8).toNat ≤ 32 := by decide

theorem witness_TxAckBitAndTxSetRxClearTheirFlags :
    ((waiting 0x40000001).cmdIn = 0x40000001 :: [] ∧ (0x40000001#32).extractLsb' 27 5 = 0x08#5 ∧
      0x40000001#32 ≠ 0x40000000#32) ∧
    ((waiting 0x4C000000).cmdIn = 0x4C000000 :: [] ∧ (0x4C000000#32).extractLsb' 27 5 = 0x09#5 ∧
      0x4C000000#32 ≠ 0x48000000#32) := by decide

theorem witness_CrcInitSeedsTheRegister :
    (waiting 0x50000001).cmdIn = 0x50000001 :: [] ∧ (0x50000001#32).extractLsb' 27 5 = 0x0A#5 ∧
    0x50000001#32 ≠ 0x50000000#32 := by decide

theorem witness_CrcByteStepsTheRegister :
    0x42#16 = (tcReset.crc.crcReg <<< 8) ^^^ (tcReset.crc.crcTab[tcReset.crc.crcReg.toNat / 256]?.getD 0) ^^^
      (0x42#8).setWidth 16 := by decide +kernel

theorem witness_CrcDetectsASingleByteError : (0x42 : Byte) ≠ 0x43 := by decide

/-- The last STAT counter, the first address past it, and a reserved bit. -/
theorem witness_ReadAnswersTheReadMap :
    readMap tcReset (0x0508#16).toNat = some 0 ∧ readMap tcReset (0x0509#16).toNat = none ∧
    ((waiting 0x60010000).cmdIn = 0x60010000 :: [] ∧ (0x60010000#32).extractLsb' 27 5 = 0x0C#5 ∧
      0x60010000#32 &&& 0xFFFF0000#32 ≠ 0x60000000#32) := by decide +kernel

theorem witness_ReadMapIsTheTable : tcReset.cfg.corrWindow ≤ 255 := by decide

theorem witness_StatusWordBits : tcReset.cfg.corrWindow ≤ 255 := by decide

theorem witness_NopChangesNothing :
    (waiting 0x00000001).cmdIn = 0x00000001 :: [] ∧ (0x00000001#32).extractLsb' 27 5 = 0x00#5 ∧
    0x00000001#32 ≠ 0x00000000#32 := by decide

theorem witness_ErrIsStickyAndGainsAtMostOneBit :
    step (waiting 0x00000000) = .next (after .nop tcReset) := rfl

theorem witness_OnlyReceiveCommandsChangeTheReceiver :
    exec .rxValidate tcReset = .next (after .rxValidate tcReset) ∧
    (∀ seed x, Instr.rxValidate ≠ .sample seed x) ∧
    exec .rxReset tcReset = .next (after .rxReset tcReset) ∧ (∀ seed x, Instr.rxReset ≠ .sample seed x) :=
  ⟨rfl, fun _ _ h => (by cases h), rfl, fun _ _ h => (by cases h)⟩

theorem witness_EachArrayHasOneWriter :
    exec (.txbufWr 31 1) tcReset = .next (after (.txbufWr 31 1) tcReset) := rfl

theorem witness_StatisticsOnlyCount :
    exec .rxValidate pendingMessage = .next (after .rxValidate pendingMessage) := rfl

end Sys2Proof.Tests
end

section
/-! STATUS (10 R112): the flags of its word are peeled off from bit 0 up, and its address is found in the READ map
because the rows of the map ascend. -/

namespace Sys2Proof.Machine

/-! ### A word that ends in one flag -/

theorem getLsbD_append_ofBool_zero {n : Nat} (x : BitVec n) (b : Bool) :
    (x ++ BitVec.ofBool b).getLsbD 0 = b := by
  rw [BitVec.getLsbD_append, if_pos Nat.zero_lt_one, BitVec.getLsbD_ofBool]
  rfl

theorem getLsbD_append_ofBool_succ {n : Nat} (x : BitVec n) (b : Bool) (i : Nat) :
    (x ++ BitVec.ofBool b).getLsbD (i + 1) = x.getLsbD i := by
  rw [BitVec.getLsbD_append, if_neg (by omega), Nat.add_sub_cancel]

theorem extractLsb'_append_ofBool_succ {n : Nat} (x : BitVec n) (b : Bool) (i k : Nat) :
    (x ++ BitVec.ofBool b).extractLsb' (i + 1) k = x.extractLsb' i k := by
  rw [BitVec.extractLsb'_append_eq_of_le (by omega), Nat.add_sub_cancel]

/-! ### The fields of STATUS above its flags -/

/-- RX_MODE is bits 15:13 of STATUS (10 R112). -/
theorem statusWord_mode (s : State) : (statusWord s).extractLsb' 13 3 = rxModeCode s.rx.mode := by
  simp only [statusWord, extractLsb'_append_ofBool_succ]
  rw [BitVec.extractLsb'_append_eq_of_add_le (by omega), BitVec.extractLsb'_eq_self]

/-- BIT_EVT stands above the thirteen flags and the three bits of RX_MODE (10 R112). -/
theorem statusWord_bitEvt (s : State) : (statusWord s).getLsbD 16 = s.rx.bitEvt := by
  simp only [statusWord, getLsbD_append_ofBool_succ]
  rw [BitVec.getLsbD_append, if_neg (by omega), getLsbD_append_ofBool_zero]

/-- Nothing stands above BIT_EVT (10 R112). -/
theorem statusWord_high (s : State) : (statusWord s).extractLsb' 17 15 = 0 := by
  simp only [statusWord, extractLsb'_append_ofBool_succ]
  rw [BitVec.extractLsb'_append_eq_of_le (by omega), extractLsb'_append_ofBool_succ,
    BitVec.extractLsb'_eq_self]
  rfl

/-! ### The rows of the READ map ascend -/

/-- The row ends at or before the start of the other. -/
def ReadRow.Before (r r' : ReadRow) : Prop := r.base + r.count ≤ r'.base

theorem ReadRow.Before.trans {r r' r'' : ReadRow} (h : r.Before r') (h' : r'.Before r'') :
    r.Before r'' := by
  unfold ReadRow.Before at *
  omega

/-- Up to the bound of 00 R8 on the correlation window, each row of 20 R202 ends before the next begins. -/
theorem readRows_ascend {s : State} (hw : s.cfg.corrWindow ≤ 255) :
    (readRows s).Pairwise ReadRow.Before := by
  have htrans : IsTrans ReadRow ReadRow.Before := ⟨fun _ _ _ => ReadRow.Before.trans⟩
  rw [← List.isChain_iff_pairwise]
  simp only [readRows, List.isChain_cons_cons, List.isChain_singleton, and_true, ReadRow.Before]
  omega

/-- In an ascending map an address lies in one row only. -/
theorem row_unique_of_ascend {rows : List ReadRow} (hrows : rows.Pairwise ReadRow.Before) {a : Nat}
    {r r' : ReadRow} (hr : r ∈ rows) (hr' : r' ∈ rows)
    (h : r.base ≤ a ∧ a < r.base + r.count) (h' : r'.base ≤ a ∧ a < r'.base + r'.count) : r' = r := by
  by_contra hne
  obtain ⟨i, hi, rfl⟩ := List.mem_iff_getElem.mp hr
  obtain ⟨j, hj, rfl⟩ := List.mem_iff_getElem.mp hr'
  have before := List.pairwise_iff_getElem.mp hrows
  unfold ReadRow.Before at before
  rcases lt_trichotomy i j with hij | rfl | hji
  · have := before i j hi hj hij
    omega
  · exact hne rfl
  · have := before j i hj hi hji
    omega

/-- An address of a row reads as the row says (20 R202). -/
theorem readMap_of_mem_row {s : State} (hw : s.cfg.corrWindow ≤ 255) {r : ReadRow} {a : Nat}
    (hr : r ∈ readRows s) (h : r.base ≤ a ∧ a < r.base + r.count) :
    readMap s a = some (r.value (a - r.base)) :=
  readMap_of_row hr (fun _ hr' h' => row_unique_of_ascend (readRows_ascend hw) hr hr' h h') h

theorem readMap_status {s : State} (hw : s.cfg.corrWindow ≤ 255) :
    readMap s 0x0400 = some (statusWord s) :=
  readMap_of_mem_row hw (r := ⟨0x0400, 1, fun _ => statusWord s⟩) (by simp [readRows]) (by simp)

/-- Settles O54: the address by its row of the READ map; flag i is peeled off after the i flags below it. -/
theorem statusWordBits : Obligations.StatusWordBits := by
  intro s
  have hmode := statusWord_mode s
  have hbitEvt := statusWord_bitEvt s
  have hhigh := statusWord_high s
  refine ⟨readMap_status, ?_, ?_, ?_, ?_, ?_, ?_, ?_, ?_, ?_, ?_, ?_, ?_, ?_, hmode, hbitEvt, hhigh⟩
  all_goals simp only [statusWord, getLsbD_append_ofBool_zero, getLsbD_append_ofBool_succ, txDone]

end Sys2Proof.Machine
end

section
/-! The READ map is the table of 20 R202: the arrays by their rows, the registers by their rows of one address, and
every other address in no row (20 R203). -/

namespace Sys2Proof.Machine

/-- The address base + i of a row reads as the row says for i (20 R202). -/
theorem readMap_base_add {s : State} (hw : s.cfg.corrWindow ≤ 255) {base count : Nat} {value : Nat → Word}
    (hr : ⟨base, count, value⟩ ∈ readRows s) {i : Nat} (hi : i < count) :
    readMap s (base + i) = some (value i) := by
  rw [readMap_of_mem_row hw hr ⟨Nat.le_add_right base i, Nat.add_lt_add_left hi base⟩, Nat.add_sub_cancel_left]

/-- A row of one address reads as its register. -/
theorem readMap_register {s : State} (hw : s.cfg.corrWindow ≤ 255) {a : Nat} {v : Word}
    (hr : ⟨a, 1, fun _ => v⟩ ∈ readRows s) : readMap s a = some v :=
  readMap_base_add hw hr Nat.zero_lt_one

/-- The row of an array of narrower entries reads as entry i, zero-extended. -/
theorem readMap_zext_entry {s : State} (hw : s.cfg.corrWindow ≤ 255) {w n base : Nat} {v : Vector (BitVec w) n}
    (hr : ⟨base, n, fun i => zext (v[i]?.getD 0)⟩ ∈ readRows s) {i : Nat} (hi : i < n) :
    readMap s (base + i) = some (v[i].setWidth 32) := by
  rw [readMap_base_add hw hr hi, Vector.getElem?_eq_getElem hi, Option.getD_some, zext]

/-- The row of an array of words reads as entry i. -/
theorem readMap_word_entry {s : State} (hw : s.cfg.corrWindow ≤ 255) {n base : Nat} {v : Vector Word n}
    (hr : ⟨base, n, fun i => v[i]?.getD 0⟩ ∈ readRows s) {i : Nat} (hi : i < n) :
    readMap s (base + i) = some v[i] := by
  rw [readMap_base_add hw hr hi, Vector.getElem?_eq_getElem hi, Option.getD_some]

/-- The row of a correlation delay line reads as its entry i. -/
theorem readMap_line_entry {s : State} (hw : s.cfg.corrWindow ≤ 255) {n base : Nat} {l : List Word}
    (hr : ⟨base, n, fun i => l[i]?.getD 0⟩ ∈ readRows s) {i : Nat} (hi : i < n) :
    readMap s (base + i) = some (l.getD i 0) := by
  rw [readMap_base_add hw hr hi, List.getD_eq_getElem?_getD]

/-- An address is mapped exactly when some row holds it (20 R203). -/
theorem readMap_ne_none {s : State} {a : Nat} :
    readMap s a ≠ none ↔ ∃ r ∈ readRows s, r.base ≤ a ∧ a < r.base + r.count := by
  simp only [ne_eq, readMap_eq_none, not_forall, not_not, exists_prop]

/-- The rows cover these ranges; those of one address fill the two blocks at 0x0400 and at 0x0410 (20 R202, R203). -/
theorem exists_row_iff {s : State} {a : Nat} :
    (∃ r ∈ readRows s, r.base ≤ a ∧ a < r.base + r.count) ↔
      (a < 36 ∨ (0x0040 ≤ a ∧ a < 0x0040 + 36) ∨ (0x0080 ≤ a ∧ a < 0x0080 + 32) ∨
       (0x00C0 ≤ a ∧ a < 0x00C0 + 29) ∨ (0x0100 ≤ a ∧ a < 0x0100 + 256) ∨
       (0x0200 ≤ a ∧ a < 0x0200 + s.cfg.corrWindow) ∨ (0x0300 ≤ a ∧ a < 0x0300 + s.cfg.corrWindow) ∨
       (0x0400 ≤ a ∧ a ≤ 0x040B) ∨ (0x0410 ≤ a ∧ a ≤ 0x0423) ∨ (0x0500 ≤ a ∧ a < 0x0500 + 9)) := by
  simp only [readRows, List.exists_mem_cons_iff, List.not_mem_nil, false_and, exists_false, or_false]
  omega

/-- Settles O53: a clause about an address holds by its row, which the constructors of membership find in the map;
the last clause holds by the ranges of all rows. -/
theorem readMapIsTheTable : Obligations.ReadMapIsTheTable := by
  intro s hw
  refine ⟨fun i hi => readMap_zext_entry hw ?_ hi, fun i hi => readMap_zext_entry hw ?_ hi,
    fun i hi => readMap_zext_entry hw ?_ hi, fun i hi => readMap_zext_entry hw ?_ hi,
    fun i hi => readMap_zext_entry hw ?_ hi, fun i hi => readMap_line_entry hw ?_ hi,
    fun i hi => readMap_line_entry hw ?_ hi, fun i hi => readMap_word_entry hw ?_ hi, ?registers⟩
  case registers =>
    and_intros
    on_goal -1 => exact fun a => readMap_ne_none.trans exists_row_iff
    all_goals exact readMap_register hw (by repeat constructor)
  all_goals repeat constructor

end Sys2Proof.Machine
end

section
/-! Words that are no command (30 R305): what decode answers on them, and the command cycle that rejects them. -/

namespace Sys2Proof

/-- A word that misses the match value of its OP's row has a non-zero reserved field (30 R304, R305). -/
theorem decode_of_mismatch {w : Word} {k : Opcode} (hrow : opcodeOfOp (opField w).toNat = some k)
    (hmask : w &&& maskOf k ≠ matchOf k) : decode w = .error .reservedField := by
  rw [decode_of_row hrow, if_neg hmask]

end Sys2Proof

namespace Sys2Proof.Machine

/-- A waiting word that does not decode is taken and rejected with ERR_CMD (40 R400, R402). -/
theorem step_of_decode_error {s : State} {w : Word} {rest : List Word} {e : DecodeError}
    (hw : s.cmdIn = w :: rest) (he : decode w = .error e) :
    step s = .next (reject .cmd { s with cmdIn := rest }) := by
  simp only [step, takeCommand, hw, he]

/-- Settles O6: in both cases of 30 R305 the word does not decode, by a reserved OP or by a reserved field. -/
theorem illegalWordsAreRejected : Obligations.IllegalWordsAreRejected := by
  intro s w rest hw hillegal
  obtain ⟨e, he⟩ : ∃ e, decode w = .error e := by
    rcases hillegal with hop | ⟨k, hrow, hmask⟩
    · exact ⟨.reservedOpcode, decode_of_no_row (opcodeOfOp_eq_none hop)⟩
    · exact ⟨.reservedField, decode_of_mismatch hrow hmask⟩
  exact step_of_decode_error hw he

end Sys2Proof.Machine
end

section
/-! The host commands NOP and READ (40 R404, R405): what exec does on each, and the rejection of their words with a
non-zero reserved field (30 R305). -/

namespace Sys2Proof.Machine

/-- A waiting word with the OP of row k that misses k's match value is rejected with ERR_CMD (30 R305). -/
theorem step_of_reserved_field {s : State} {w : Word} {rest : List Word} {k : Opcode}
    (hw : s.cmdIn = w :: rest) (hop : opField w = opField (matchOf k)) (hmask : w &&& maskOf k ≠ matchOf k) :
    step s = .next (reject .cmd { s with cmdIn := rest }) :=
  have hrow : opcodeOfOp (opField w).toNat = some k := by rw [hop, opcodeOfOp_matchOf]
  step_of_decode_error hw (decode_of_mismatch hrow hmask)

/-- A command without operands has one word: any other word with its OP is rejected with ERR_CMD (30 R305). -/
theorem step_of_ne_only_word {s : State} {w : Word} {rest : List Word} {k : Opcode}
    (hfull : maskOf k = 0xFFFFFFFF#32) (hw : s.cmdIn = w :: rest) (hop : opField w = opField (matchOf k))
    (hne : w ≠ matchOf k) : step s = .next (reject .cmd { s with cmdIn := rest }) :=
  step_of_reserved_field hw hop (by rwa [hfull, and_fullMask])

/-- NOP only answers 0 (40 R404). -/
theorem exec_nop (s : State) : exec .nop s = .next (respond 0 s) := rfl

/-- READ of a mapped address only answers its value (40 R405). -/
theorem exec_read_of_mapped {s : State} {addr : BitVec 16} {v : Word} (h : readMap s addr.toNat = some v) :
    exec (.read addr) s = .next (respond v s) := by
  simp only [exec, execRead, unsignedOperand, h]

/-- READ of an unmapped address is rejected with ERR_ADDR (20 R203). -/
theorem exec_read_of_unmapped {s : State} {addr : BitVec 16} (h : readMap s addr.toNat = none) :
    exec (.read addr) s = .next (reject .addr s) := by
  simp only [exec, execRead, unsignedOperand, h]

/-- Settles O52: the two outcomes of the READ map, and the reserved field of a READ word. -/
theorem readAnswersTheReadMap : Obligations.ReadAnswersTheReadMap := by
  refine ⟨fun _ _ _ hmapped => exec_read_of_mapped hmapped, fun _ _ hunmapped => exec_read_of_unmapped hunmapped, ?_⟩
  intro s w rest hw hop hmask
  exact step_of_reserved_field (k := .read) hw hop hmask

/-- Settles O55: the equation of NOP, whose only word is 0x00000000. -/
theorem nopChangesNothing : Obligations.NopChangesNothing := by
  refine ⟨exec_nop, ?_⟩
  intro s w rest hw hop hne
  exact step_of_ne_only_word (k := .nop) rfl hw hop hne

end Sys2Proof.Machine
end

section
/-! CarrierPLL (41): Track cut after its correlation. Steps 1 to 4 are `trackCorrelated`; what steps 5 to 7 write on top
of it is said once for each step, and each register of the sample follows. -/

namespace Sys2Proof.Machine

/-! ### The frame of each step -/

/-- The registers steps 1 to 4 of Track leave (41 R500). -/
def trackCorrelated (c : Config) (x : Int) (p : Pll) : Pll :=
  correlate c (agcPrescale c x p).1 (phaseUpdate c (agcPrescale c x p).2)

/-- Steps 5 to 7 run on the registers of steps 1 to 4 (41 R500). -/
theorem track_fst (c : Config) (x : Int) (p : Pll) :
    (track c x p).1 = agcFeedback c (loopFilter c (phaseError (trackCorrelated c x p))) := rfl

/-- Steps 2 to 4 run on the registers of the last sample but for GAIN_INDEX, which they do not read (41 R502). -/
theorem trackCorrelated_eq (c : Config) (x : Int) (p : Pll) :
    ∃ g, trackCorrelated c x p = correlate c (agcPrescale c x p).1 (phaseUpdate c { p with gainIndex := g }) := by
  obtain ⟨g, _, ha⟩ := agcPrescale_pll c x p
  exact ⟨g, by rw [trackCorrelated, ha]⟩

/-- Step 6 writes the filter's three registers only (41 R513). -/
theorem loopFilter_pll (c : Config) (p : Pll) :
    ∃ pro int eta, loopFilter c p = { p with proPhase := pro, intPhase := int, eta := eta } := by
  unfold loopFilter
  split
  · exact ⟨p.proPhase, p.intPhase, p.eta, rfl⟩
  · exact ⟨_, _, _, rfl⟩

/-- Step 7 writes GAIN_INDEX only (41 R514). -/
theorem agcFeedback_pll (c : Config) (p : Pll) : ∃ g, agcFeedback c p = { p with gainIndex := g } := by
  unfold agcFeedback
  split
  · exact ⟨_, rfl⟩
  · exact ⟨p.gainIndex, rfl⟩

/-- Steps 5 to 7 write PHASE_ERR, the filter's registers and GAIN_INDEX only. -/
theorem track_pll (c : Config) (x : Int) (p : Pll) :
    ∃ err pro int eta g, (track c x p).1 =
      { trackCorrelated c x p with
        phaseErr := err, proPhase := pro, intPhase := int, eta := eta, gainIndex := g } := by
  obtain ⟨pro, int, eta, hfilter⟩ := loopFilter_pll c (phaseError (trackCorrelated c x p))
  obtain ⟨g, hfeedback⟩ := agcFeedback_pll c (loopFilter c (phaseError (trackCorrelated c x p)))
  exact ⟨_, pro, int, eta, g, by rw [track_fst, hfeedback, hfilter]; rfl⟩

/-! ### Phase, cycle counter and bit wrap -/

theorem track_phase (c : Config) (x : Int) (p : Pll) :
    (track c x p).1.phase = BitVec.ofNat 32 (nextPhase c p) := by
  obtain ⟨_, _, _, _, _, htrack⟩ := track_pll c x p
  obtain ⟨_, hcorr⟩ := trackCorrelated_eq c x p
  rw [htrack, hcorr]
  rfl

theorem track_cycle (c : Config) (x : Int) (p : Pll) :
    (track c x p).1.cycle = if phaseWraps c p then BitVec.ofNat 8 (nextCycle c p) else p.cycle := by
  obtain ⟨_, _, _, _, _, htrack⟩ := track_pll c x p
  obtain ⟨_, hcorr⟩ := trackCorrelated_eq c x p
  rw [htrack, hcorr]
  rfl

theorem track_bitWrap (c : Config) (x : Int) (p : Pll) : (track c x p).2 = bitWraps c p := by
  obtain ⟨_, _, ha⟩ := agcPrescale_pll c x p
  simp only [track, ha]
  rfl

/-- The remainder of 41 R505 is not negative, so it is the natural number nextPhase. -/
theorem natCast_nextPhase {c : Config} (h : 0 < c.phaseMod) (p : Pll) :
    (nextPhase c p : Int) = ((p.phase.toNat : Int) + c.eta0 + p.eta.toInt) % (c.phaseMod : Int) :=
  Int.toNat_of_nonneg (Int.emod_nonneg _ (by omega))

theorem nextCycle_lt {c : Config} (h : 1 ≤ c.cyclesPerBit) (p : Pll) : nextCycle c p < c.cyclesPerBit :=
  Nat.mod_lt _ h

/-- The new PHASE fits its register (41 R505). -/
theorem track_phase_toNat {c : Config} (h : c.OscillatorOk) (x : Int) (p : Pll) :
    (track c x p).1.phase.toNat = nextPhase c p := by
  obtain ⟨hpos, hle⟩ := phaseMod_bounds h
  rw [track_phase, toNat_ofNat_of_lt ((nextPhase_lt c p hpos).trans_le hle)]

/-- The new CYCLE fits its register (41 R506). -/
theorem track_cycle_toNat {c : Config} (h : c.OscillatorOk) (x : Int) (p : Pll) :
    (track c x p).1.cycle.toNat = if phaseWraps c p then nextCycle c p else p.cycle.toNat := by
  obtain ⟨-, -, -, -, hpos, hle, -⟩ := h
  have hlt : nextCycle c p < 2 ^ 8 := by
    have := nextCycle_lt hpos p
    omega
  rw [track_cycle]
  split
  · exact toNat_ofNat_of_lt hlt
  · rfl

/-- Settles O14: PHASE is the remainder of 41 R505, and the wrap test decides both CYCLE and the bit wrap. -/
theorem trackAdvancesPhaseAndCycle : Obligations.TrackAdvancesPhaseAndCycle := by
  intro c x p n cyc hc hn hcyc
  obtain ⟨hosc, -⟩ := hc
  have hpos := (phaseMod_bounds hosc).1
  obtain rfl : n = nextPhase c p := by
    have hnext := natCast_nextPhase hpos p
    exact_mod_cast hn.trans hnext.symm
  obtain rfl : cyc = nextCycle c p := hcyc
  refine ⟨track_phase_toNat hosc x p, nextPhase_lt c p hpos, ?_⟩
  split
  case isTrue hwrap => simp [track_cycle_toNat hosc, track_bitWrap, bitWraps, phaseWraps, hwrap]
  case isFalse hwrap => simp [track_cycle, track_bitWrap, bitWraps, phaseWraps, hwrap]

/-! ### Phase error and loop filter -/

/-- PHSIN stays within W products (41 R509, R510). -/
theorem natAbs_trackCorrelated_phsin_le {c : Config} (h : c.OscillatorOk) {p : Pll} (hp : PllInv c p)
    (x : BitVec 16) : (trackCorrelated c x.toInt p).phsin.toInt.natAbs ≤ c.corrWindow * 2 ^ 30 := by
  obtain ⟨-, -, -, -, -, -, -, hW⟩ := h
  have hxs : Fits16 (agcPrescale c x.toInt p).1 := fits16_agcPrescale c p (fits16_toInt x)
  obtain ⟨_, hcorr⟩ := trackCorrelated_eq c x.toInt p
  obtain ⟨-, -, -, -, hsum⟩ := slideSum_exact hW hp.corrS_length hp.corrIdx_lt hp.corrS_bound hp.phsin_sum
    (natAbs_mul_le_of_fits16 (fits16_sine c _) hxs)
  rw [hcorr]
  exact hsum

/-- A value of magnitude below 2^w is unchanged by a signed register of w + 1 bits. -/
theorem toInt_ofInt_of_natAbs_lt {w : Nat} {v : Int} (h : v.natAbs < 2 ^ w) :
    (BitVec.ofInt (w + 1) v).toInt = v := by
  have habs : |v| < 2 ^ w := by
    rw [Int.abs_eq_natAbs]
    exact_mod_cast h
  obtain ⟨hlow, hhigh⟩ := abs_lt.mp habs
  have hhalf : (2 : Int) ^ (w + 1) / 2 = 2 ^ w := by
    rw [pow_succ, Int.mul_ediv_cancel _ two_ne_zero]
  exact toInt_ofInt_of_range (by rw [hhalf]; exact hlow.le) (by rw [hhalf]; exact hhigh) w.succ_pos

/-- PHASE_ERR is exact unless PHSIN is the one value whose negation does not fit (41 R511). -/
theorem phaseError_toInt {q : Pll} (h : q.phsin.toInt.natAbs < 2 ^ 47) :
    (phaseError q).phaseErr.toInt = if q.phcos.toInt < 0 then -q.phsin.toInt else q.phsin.toInt := by
  simp only [phaseError]
  split
  · exact toInt_ofInt_of_natAbs_lt (by rwa [Int.natAbs_neg])
  · rfl

/-- PRO_PHASE is small: a phase error of W products times a 16-bit gain (10 R103, 41 R513). -/
theorem natAbs_nextProPhase_lt (c : Config) {q : Pll} (h : q.phaseErr.toInt.natAbs ≤ 255 * 2 ^ 30) :
    (nextProPhase c q).natAbs < 2 ^ 53 := by
  have hproduct : (q.phaseErr.toInt * c.kp.toInt).natAbs ≤ 255 * 2 ^ 30 * 2 ^ 15 := by
    rw [Int.natAbs_mul]
    exact Nat.mul_le_mul h (natAbs_toInt16_le c.kp)
  exact (natAbs_asr_le hproduct).trans_lt (by norm_num)

/-- The clamp bounds the accumulator (41 R513). -/
theorem natAbs_nextIntPhase_le (c : Config) (q : Pll) : (nextIntPhase c q).natAbs ≤ c.intLimit := by
  rw [nextIntPhase, clamp_eq_max_min]
  omega

theorem loopFilter_of_hold (c : Config) {q : Pll} (h : q.phaseHold = true) : loopFilter c q = q := by
  simp [loopFilter, h]

/-- The running filter writes its three values without truncation (41 R513). -/
theorem loopFilter_toInt {c : Config} (hc : c.LoopOk) {q : Pll} (hrun : q.phaseHold = false)
    (herr : q.phaseErr.toInt.natAbs ≤ 255 * 2 ^ 30) :
    (loopFilter c q).proPhase.toInt = nextProPhase c q ∧
    (loopFilter c q).intPhase.toInt = nextIntPhase c q ∧
    (loopFilter c q).eta.toInt = nextProPhase c q + nextIntPhase c q := by
  obtain ⟨-, -, hlimit⟩ := hc
  have hpro := natAbs_nextProPhase_lt c herr
  have hint := natAbs_nextIntPhase_le c q
  simp only [loopFilter, hrun, Bool.false_eq_true, if_false]
  exact ⟨toInt_ofInt_of_natAbs_lt (by omega), toInt_ofInt_of_natAbs_lt (by omega),
    toInt_ofInt_of_natAbs_lt (by omega)⟩

/-- Steps 1 to 4 leave the registers of the loop filter and the holds alone. -/
theorem trackCorrelated_filter (c : Config) (x : Int) (p : Pll) :
    (trackCorrelated c x p).proPhase = p.proPhase ∧ (trackCorrelated c x p).intPhase = p.intPhase ∧
    (trackCorrelated c x p).eta = p.eta ∧ (trackCorrelated c x p).phaseHold = p.phaseHold ∧
    (trackCorrelated c x p).agcHold = p.agcHold := by
  obtain ⟨_, hcorr⟩ := trackCorrelated_eq c x p
  rw [hcorr]
  exact ⟨rfl, rfl, rfl, rfl, rfl⟩

/-- The sums of the sample are those of its correlation. -/
theorem track_sums (c : Config) (x : Int) (p : Pll) :
    (track c x p).1.phcos = (trackCorrelated c x p).phcos ∧
    (track c x p).1.phsin = (trackCorrelated c x p).phsin := by
  obtain ⟨_, _, _, _, _, htrack⟩ := track_pll c x p
  rw [htrack]
  exact ⟨rfl, rfl⟩

/-- The filter's registers of the sample are those of step 6, which runs on the phase error of step 5. -/
theorem track_filter (c : Config) (x : Int) (p : Pll) :
    (track c x p).1.phaseErr = (phaseError (trackCorrelated c x p)).phaseErr ∧
    (track c x p).1.proPhase = (loopFilter c (phaseError (trackCorrelated c x p))).proPhase ∧
    (track c x p).1.intPhase = (loopFilter c (phaseError (trackCorrelated c x p))).intPhase ∧
    (track c x p).1.eta = (loopFilter c (phaseError (trackCorrelated c x p))).eta := by
  obtain ⟨_, hfeedback⟩ := agcFeedback_pll c (loopFilter c (phaseError (trackCorrelated c x p)))
  obtain ⟨_, _, _, hfilter⟩ := loopFilter_pll c (phaseError (trackCorrelated c x p))
  rw [track_fst, hfeedback]
  exact ⟨by rw [hfilter], rfl, rfl, rfl⟩

/-- PHASE_ERR of one sample is exact (41 R511). -/
theorem track_phaseErr_toInt {c : Config} (h : c.OscillatorOk) {p : Pll} (hp : PllInv c p) (x : BitVec 16) :
    (track c x.toInt p).1.phaseErr.toInt =
      if (track c x.toInt p).1.phcos.toInt < 0 then -(track c x.toInt p).1.phsin.toInt
      else (track c x.toInt p).1.phsin.toInt := by
  have hsin := natAbs_trackCorrelated_phsin_le h hp x
  obtain ⟨-, -, -, -, -, -, -, hW⟩ := h
  obtain ⟨hphcos, hphsin⟩ := track_sums c x.toInt p
  obtain ⟨herr, -⟩ := track_filter c x.toInt p
  rw [herr, hphcos, hphsin]
  exact phaseError_toInt (by omega)

/-- PHASE_ERR of one sample stays within W products. -/
theorem natAbs_track_phaseErr_le {c : Config} (h : c.OscillatorOk) {p : Pll} (hp : PllInv c p) (x : BitVec 16) :
    (track c x.toInt p).1.phaseErr.toInt.natAbs ≤ c.corrWindow * 2 ^ 30 := by
  have hsin := natAbs_trackCorrelated_phsin_le h hp x
  obtain ⟨-, hphsin⟩ := track_sums c x.toInt p
  rw [track_phaseErr_toInt h hp x, hphsin]
  split <;> omega

/-- While PHASE_HOLD = 1 the filter keeps its values (41 R512). -/
theorem track_filter_of_hold (c : Config) (x : Int) {p : Pll} (h : p.phaseHold = true) :
    (track c x p).1.proPhase = p.proPhase ∧ (track c x p).1.intPhase = p.intPhase ∧
    (track c x p).1.eta = p.eta := by
  obtain ⟨hpro, hint, heta, hhold, -⟩ := trackCorrelated_filter c x p
  obtain ⟨-, hpro', hint', heta'⟩ := track_filter c x p
  rw [loopFilter_of_hold c (q := phaseError (trackCorrelated c x p)) (hhold.trans h)] at hpro' hint' heta'
  exact ⟨hpro'.trans hpro, hint'.trans hint, heta'.trans heta⟩

/-- While PHASE_HOLD = 0 the filter steps by the new PHASE_ERR, exactly as integers (41 R513). -/
theorem track_filter_of_run {c : Config} (hosc : c.OscillatorOk) (hloop : c.LoopOk) {p : Pll} (hp : PllInv c p)
    (x : BitVec 16) (h : p.phaseHold = false) :
    (track c x.toInt p).1.proPhase.toInt = asr ((track c x.toInt p).1.phaseErr.toInt * c.kp.toInt) c.kpShift ∧
    (track c x.toInt p).1.intPhase.toInt =
      clamp (p.intPhase.toInt + asr ((track c x.toInt p).1.phaseErr.toInt * c.ki.toInt) c.kiShift)
        (-(c.intLimit : Int)) c.intLimit ∧
    (track c x.toInt p).1.eta.toInt =
      (track c x.toInt p).1.proPhase.toInt + (track c x.toInt p).1.intPhase.toInt := by
  obtain ⟨-, hint, -, hhold, -⟩ := trackCorrelated_filter c x.toInt p
  have hbound := natAbs_track_phaseErr_le hosc hp x
  obtain ⟨-, -, -, -, -, -, -, hW⟩ := hosc
  obtain ⟨herr, hpro', hint', heta'⟩ := track_filter c x.toInt p
  rw [herr] at hbound
  obtain ⟨hpro, hacc, heta⟩ := loopFilter_toInt hloop (q := phaseError (trackCorrelated c x.toInt p))
    (hhold.trans h) (hbound.trans (Nat.mul_le_mul_right _ hW))
  rw [hpro', hint', heta', herr, heta, hpro, hacc, ← hint]
  exact ⟨rfl, rfl, rfl⟩

/-- Settles O17: PHASE_ERR is exact by the correlation's bound, and the filter's two cases are the hold and the run. -/
theorem trackFiltersThePhaseErrorExactly : Obligations.TrackFiltersThePhaseErrorExactly := by
  rintro c x p _ ⟨hosc, -, hloop, -⟩ hp rfl
  refine ⟨track_phaseErr_toInt hosc hp x, track_filter_of_hold c x.toInt, fun hrun => ?_, track_holds c x.toInt p⟩
  obtain ⟨hpro, hint, heta⟩ := track_filter_of_run hosc hloop hp x hrun
  rw [clamp_eq_max_min] at hint
  exact ⟨hpro, hint, heta⟩

/-! ### AGC feedback -/

theorem agcPrescale_of_disabled {c : Config} (h : c.agcEnable = false) (x : Int) (p : Pll) :
    agcPrescale c x p = (x, p) := by
  simp [agcPrescale, h]

/-- A disabled or held AGC leaves the registers alone (41 R501, R514). -/
theorem agcFeedback_of_off {c : Config} {q : Pll} (h : c.agcEnable = false ∨ q.agcHold = true) :
    agcFeedback c q = q := by
  apply if_neg
  rintro ⟨henable, hrun⟩
  simp [henable, hrun] at h

/-- The running AGC writes the index step 7 moves to, which fits its register (41 R514). -/
theorem agcFeedback_gainIndex {c : Config} (hc : c.AgcOk) {q : Pll} (henable : c.agcEnable = true)
    (hrun : q.agcHold = false) : (agcFeedback c q).gainIndex.toNat = nextGainIndex c q := by
  obtain ⟨-, -, hlen, -⟩ := hc
  rw [agcFeedback, if_pos ⟨henable, hrun⟩]
  apply toNat_ofNat_of_lt
  have := q.gainIndex.isLt
  unfold nextGainIndex
  split <;> omega

/-- Step 7 runs on the gain index of step 1, the new PHCOS and the AGC_HOLD of the last sample (41 R500). -/
theorem track_feedback (c : Config) (x : Int) (p : Pll) :
    ∃ q, (track c x p).1 = agcFeedback c q ∧ q.gainIndex = (agcPrescale c x p).2.gainIndex ∧
      q.phcos = (track c x p).1.phcos ∧ q.agcHold = p.agcHold := by
  obtain ⟨-, -, -, -, hhold⟩ := trackCorrelated_filter c x p
  obtain ⟨hphcos, -⟩ := track_sums c x p
  obtain ⟨_, _, _, hfilter⟩ := loopFilter_pll c (phaseError (trackCorrelated c x p))
  refine ⟨_, track_fst c x p, ?_⟩
  rw [hfilter, hphcos]
  exact ⟨rfl, rfl, hhold⟩

/-- Settles O18: the AGC is disabled, held or running, and only in the last case step 7 moves the index. -/
theorem trackFeedsTheGainBack : Obligations.TrackFeedsTheGainBack := by
  rintro c x p _ _ ⟨-, hagc, -⟩ _ rfl rfl
  obtain ⟨q, htrack, hgain, hphcos, hhold⟩ := track_feedback c x p
  refine ⟨fun hdisabled => ?disabled, fun _ hheld => ?held, fun henable hrun => ?running⟩
  case disabled =>
    rw [agcPrescale_of_disabled hdisabled] at hgain ⊢
    rw [htrack, agcFeedback_of_off (.inl hdisabled)]
    exact ⟨hgain, rfl⟩
  case held => rw [htrack, agcFeedback_of_off (.inr (hhold.trans hheld)), hgain]
  case running =>
    rw [← hphcos, htrack, agcFeedback_gainIndex hagc henable (hhold.trans hrun), nextGainIndex, hgain]
    simp only [Nat.cast_lt]
    split <;> omega

end Sys2Proof.Machine
end

section
/-! The BitSquarer (42): what one value does to the hysteresis count, and what a run of values past the threshold does
to it. -/

namespace Sys2Proof.Machine

/-! ### One value -/

/-- Past the threshold, strictly and on the side opposite to DET_BIT (42 R601). -/
theorem beyond_iff (c : Config) (v : Int) (d : Bool) :
    beyond c v d = true ↔ if d then v < -(c.thresholdV : Int) else (c.thresholdV : Int) < v := by
  cases d <;> simp [beyond]

theorem beyond_eq_false_iff (c : Config) (v : Int) (d : Bool) :
    beyond c v d = false ↔ if d then -(c.thresholdV : Int) ≤ v else v ≤ (c.thresholdV : Int) := by
  cases d <;> simp [beyond]

theorem square_of_not_beyond {c : Config} {v : Int} {q : Squarer} (h : beyond c v q.detBit = false) :
    square c v q = { detBit := q.detBit, hystCnt := 0, trans := false } := by
  simp [square, h]

/-- A count up to THRESHOLD_T can take one more: THRESHOLD_T + 1 fits u16 (42 R603). -/
theorem toNat_hystCnt_add_one {q : Squarer} {n : Nat} (hcnt : q.hystCnt = BitVec.ofNat 16 n) (hn : n ≤ 65534) :
    (q.hystCnt + 1).toNat = n + 1 := by
  rw [hcnt]
  exact (congrArg BitVec.toNat (BitVec.ofNat_add n 1).symm).trans (toNat_ofNat_of_lt (by omega))

/-- A value past the threshold is counted while the count stays within THRESHOLD_T (42 R601). -/
theorem square_of_count_lt {c : Config} {v : Int} {q : Squarer} {n : Nat} (hT : c.thresholdT ≤ 65534)
    (h : beyond c v q.detBit = true) (hcnt : q.hystCnt = BitVec.ofNat 16 n) (hn : n < c.thresholdT) :
    square c v q = { detBit := q.detBit, hystCnt := BitVec.ofNat 16 (n + 1), trans := false } := by
  have hnext := toNat_hystCnt_add_one hcnt (by omega)
  rw [square, if_pos h, if_neg (by omega), hcnt, BitVec.ofNat_add]
  rfl

/-- A value past the threshold flips DET_BIT when THRESHOLD_T of them were counted before it (42 R601). -/
theorem square_of_count_eq {c : Config} {v : Int} {q : Squarer} (hT : c.thresholdT ≤ 65534)
    (h : beyond c v q.detBit = true) (hcnt : q.hystCnt = BitVec.ofNat 16 c.thresholdT) :
    square c v q = { detBit := !q.detBit, hystCnt := 0, trans := true } := by
  have hnext := toNat_hystCnt_add_one hcnt hT
  rw [square, if_pos h, if_pos (by omega)]

/-! ### A run of values -/

theorem feedSquare_concat (c : Config) (vs : List Int) (v : Int) (q : Squarer) :
    feedSquare c (vs ++ [v]) q = square c v (feedSquare c vs q) :=
  List.foldl_concat ..

/-- Up to THRESHOLD_T values past the threshold are counted and leave DET_BIT alone (42 R601). TRANS is left out: the
empty run keeps it, any other clears it. -/
theorem feedSquare_counts {c : Config} {q : Squarer} (hT : c.thresholdT ≤ 65534) (hq : q.hystCnt = 0)
    (vs : List Int) (hvs : ∀ v ∈ vs, beyond c v q.detBit = true) (hlen : vs.length ≤ c.thresholdT) :
    (feedSquare c vs q).detBit = q.detBit ∧ (feedSquare c vs q).hystCnt = BitVec.ofNat 16 vs.length := by
  induction vs using List.reverseRecOn with
  | nil => exact ⟨rfl, hq⟩
  | append_singleton vs v ih =>
    simp only [List.forall_mem_append, List.forall_mem_singleton, List.length_append, List.length_singleton]
      at hvs hlen ⊢
    obtain ⟨hinit, hlast⟩ := hvs
    obtain ⟨hdet, hcnt⟩ := ih hinit (by omega)
    rw [feedSquare_concat, square_of_count_lt hT (hdet ▸ hlast) hcnt hlen]
    exact ⟨hdet, rfl⟩

/-- Settles O20: all values but the last are counted, and the last is counted too or is the one that flips DET_BIT. -/
theorem slicerFlipsAfterThresholdTSamples : Obligations.SlicerFlipsAfterThresholdTSamples := by
  refine ⟨fun c q vs hT hq hne hvs => ?run, fun c v q h => ?restart⟩
  case restart => exact square_of_not_beyond ((beyond_eq_false_iff c v q.detBit).mpr h)
  case run =>
    obtain rfl | ⟨ws, v, rfl⟩ := vs.eq_nil_or_concat'
    · exact absurd rfl hne
    simp only [List.forall_mem_append, List.forall_mem_singleton, List.length_append, List.length_singleton,
      Nat.add_right_cancel_iff, feedSquare_concat] at hvs ⊢
    obtain ⟨hinit, hlast⟩ := hvs
    have hcounts := feedSquare_counts hT hq ws fun u hu => (beyond_iff c u q.detBit).mpr (hinit u hu)
    replace hlast := (beyond_iff c v q.detBit).mpr hlast
    refine ⟨fun hlt => ?counted, fun heq => ?flips⟩
    case counted =>
      obtain ⟨hdet, hcnt⟩ := hcounts (Nat.le_of_lt hlt)
      rw [square_of_count_lt hT (hdet ▸ hlast) hcnt hlt, hdet]
    case flips =>
      obtain ⟨hdet, hcnt⟩ := hcounts heq.le
      rw [square_of_count_eq hT (hdet ▸ hlast) (heq ▸ hcnt), hdet]

end Sys2Proof.Machine
end

section
/-! ReceiveStateMachine (43): case (d) of CodewordDone, one equation of whole states for each of its parts, and
RX_RESET. -/

namespace Sys2Proof.Machine

/-! ### A stored codeword (43 R717 (d)) -/

/-- A codeword that meets none of the conditions (a) to (c) is stored (43 R717). -/
theorem codewordDone_of_stored (seed : BitVec 11) {s : State}
    (htime : s.rx.modeCounter.toNat ≤ s.cfg.findEopTimeout) (hroom : s.rx.byteCount.toNat < maxRxMsgLen)
    (heop : s.rx.detData ≠ eopPattern) :
    codewordDone seed s = nextCodeword (enterFindEop (checkParity (storeByte s))) := by
  rw [codewordDone, if_neg (Nat.not_lt.mpr htime), if_neg (Nat.not_le.mpr hroom), if_neg heop]

/-- With room in RXBUF the bounds check of the write plays no part. -/
theorem storeByte_of_room {s : State} (hroom : s.rx.byteCount.toNat < maxRxMsgLen) :
    storeByte s = { s with rx := { s.rx with
      rxbuf := s.rx.rxbuf.set s.rx.byteCount.toNat (codewordByte s.rx.detData)
      byteCount := s.rx.byteCount + 1 } } := by
  rw [storeByte, setIfInBounds_eq_set _ _ _ hroom]

/-- The parity check writes one counter and nothing else (43 R723). -/
theorem checkParity_eq (s : State) :
    checkParity s =
      { s with
        stat := if s.rx.mode = .findData ∧
            s.cfg.precode (codewordByte s.rx.detData) ≠ codewordBits s.rx.detData
          then s.stat.set 6 (s.stat[6] + 1) else s.stat } := by
  simp only [checkParity, parityMismatch, decide_eq_true_eq]
  split_ifs <;> rfl

/-- BYTE_COUNT reaches FIND_EOP_AFTER with the 34th byte, also with the 8-bit wrap (43 R719). -/
theorem byteCount_succ_eq_findEopAfter (n : BitVec 8) : (n + 1).toNat = findEopAfter ↔ n = 33 := by
  unfold findEopAfter
  bv_omega

/-- The FIND_EOP test writes RX_MODE and nothing else (43 R719). -/
theorem enterFindEop_of_succ {s : State} {n : BitVec 8} (hn : s.rx.byteCount = n + 1) :
    enterFindEop s = { s with rx := { s.rx with
      mode := if s.rx.mode = .findData ∧ n = 33 then .findEop else s.rx.mode } } := by
  have hafter : s.rx.byteCount.toNat = findEopAfter ↔ n = 33 := hn ▸ byteCount_succ_eq_findEopAfter n
  simp only [enterFindEop, hafter]
  split_ifs <;> rfl

/-- Settles O31: none of the cases (a) to (c) applies, and the parts of case (d) run one after the other. -/
theorem codewordIsStored : Obligations.CodewordIsStored := by
  rintro seed s _ hroom htime heop rfl
  rw [codewordDone_of_stored seed htime hroom heop, storeByte_of_room hroom, checkParity_eq,
    enterFindEop_of_succ (n := s.rx.byteCount) rfl]
  rfl

/-! ### RX_RESET (43 R720, R721) -/

/-- RX_RESET is ResetToBitSync with the answer 0 (43 R721). -/
theorem exec_rxReset (s : State) : exec .rxReset s = .next (respond 0 (resetToBitSync s)) := rfl

/-- Settles O34: the registers that ResetToBitSync writes, and the only word of RX_RESET, 0x10000000. -/
theorem rxResetReturnsToBitsync : Obligations.RxResetReturnsToBitsync := by
  refine ⟨exec_rxReset, ?_⟩
  intro s w rest hw hop hne
  exact step_of_ne_only_word (k := .rxReset) rfl hw hop hne

end Sys2Proof.Machine
end

section
/-! The receive message validator (44): RX_ACK. -/

namespace Sys2Proof.Machine

/-- RX_ACK clears RX_VALID with the answer 0 (44 R802). -/
theorem exec_rxAck (s : State) :
    exec .rxAck s = .next (respond 0 { s with validator := { s.validator with rxValid := false } }) := rfl

/-- Settles O38: the one register that RX_ACK writes, and the only word of RX_ACK, 0x20000000. -/
theorem rxAckClearsRxValid : Obligations.RxAckClearsRxValid := by
  refine ⟨exec_rxAck, ?_⟩
  intro s w rest hw hop hne
  exact step_of_ne_only_word (k := .rxAck) rfl hw hop hne

end Sys2Proof.Machine
end

section
/-! TransmitFramer (46): the frame that TX_ENCODE loads, the registers and the answer of TX_NEXT_BIT, and the flags that
TX_ACK_BIT and TX_SET_RX clear. -/

namespace Sys2Proof.Machine

/-! ### TX_ENCODE: the frame in TXDATA (46 R1000, R1001, R1011) -/

/-- The Puts of TX_ENCODE, one part of the frame after the other, leave the frame's bit stream in the buffer. -/
theorem buildFrame_holds (c : Config) (tab : Vector (BitVec 16) 256) (payload : List Byte) :
    HoldsStream (buildFrame c tab payload) (frameStream c tab payload) :=
  have header := putWords_holds c.txHeader.toList empty_holds
  have codewords := putBytes_holds c payload header
  have crcCodewords := putBytes_holds c (crcBytes (crcOf tab payload)) codewords
  putWords_holds c.txTrailer.toList crcCodewords

/-- Settles O43: TXDATA is the buffer of the built frame, which holds the frame's stream. -/
theorem txdataHoldsTheFrameStream : Obligations.TxdataHoldsTheFrameStream := by
  intro s t len k hk hlen hexec
  rw [exec_txEncode_of_le s len hlen] at hexec
  cases hexec
  obtain ⟨-, hbits⟩ := buildFrame_holds s.cfg s.crc.crcTab (txPayload s.tx len.toNat)
  exact hbits k hk

/-! ### TX_NEXT_BIT (46 R1012) -/

/-- TX_NEXT_BIT serves one bit and answers it with TX_DONE. -/
theorem exec_txNextBit (s : State) :
    exec .txNextBit s = .next (respond (nextBitResponse (serveBit s.tx)) { s with tx := serveBit s.tx }) := rfl

/-- Within TXDATA the bit served is the stored stream bit. -/
theorem servedBit_of_lt {t : Tx} {i : Nat} (h : i / 16 < 29) :
    servedBit t i = (t.txdata[i / 16]?.getD 0).getLsbD (15 - i % 16) := if_pos h

/-- Past word 28 the bit served is 0. -/
theorem servedBit_of_ge {t : Tx} {i : Nat} (h : 29 ≤ i / 16) : servedBit t i = false := if_neg (Nat.not_lt.mpr h)

/-- The saturating increment fits its register. -/
theorem toNat_satInc16 (v : BitVec 16) : (satInc16 v).toNat = min (v.toNat + 1) 65535 :=
  toNat_ofNat_of_lt (by omega)

/-- TX_DONE after one bit is taken from the cursor as the bit moved it (46 R1012, R1015). -/
theorem txDone_serveBit (t : Tx) :
    txDone (serveBit t) = decide (t.txMsgLen.toNat < min (t.txBitNum.toNat + 1) 65535) := by
  simp only [txDone, serveBit, toNat_satInc16]

/-- The answer of TX_NEXT_BIT has the bit at bit 0 and TX_DONE at bit 1. -/
theorem nextBitResponse_eq (t : Tx) :
    nextBitResponse t = BitVec.ofNat 32 (t.txBit.toNat + 2 * (txDone t).toNat) := by
  unfold nextBitResponse
  cases t.txBit <;> cases txDone t <;> rfl

/-- Settles O44: the bit at the cursor within TXDATA and past it, the answer after the cursor moved, and the only word
of TX_NEXT_BIT, 0x38000000. -/
theorem txNextBitServesTheCursor : Obligations.TxNextBitServesTheCursor := by
  refine ⟨fun s i b done hi hwithin hpast hdone => ?serves, fun s w rest hw hop hne => ?reserved⟩
  case serves =>
    subst hi
    have hbit : (serveBit s.tx).txBit = b := by
      rcases Nat.lt_or_ge (s.tx.txBitNum.toNat / 16) 29 with h | h
      · exact (servedBit_of_lt h).trans (hwithin h).symm
      · exact (servedBit_of_ge h).trans (hpast h).symm
    subst hbit hdone
    rw [exec_txNextBit, nextBitResponse_eq, txDone_serveBit]
    rfl
  case reserved => exact step_of_ne_only_word (k := .txNextBit) rfl hw hop hne

/-! ### TXBUF_WR (46 R1010) -/

/-- TXBUF_WR of an index in range writes one byte of TXUSER with the answer 0. -/
theorem exec_txbufWr_of_lt (s : State) (idx byte : BitVec 8) (h : idx.toNat < 32) :
    exec (.txbufWr idx byte) s =
      .next (respond 0 { s with tx := { s.tx with txuser := s.tx.txuser.set idx.toNat byte } }) := by
  simp only [exec, execTxbufWr, unsignedOperand, if_neg (Nat.not_lt.mpr (Nat.le_of_lt_succ h)),
    setIfInBounds_eq_set _ _ _ h]

/-- TXBUF_WR past index 31 is rejected with ERR_IDX. -/
theorem exec_txbufWr_of_gt (s : State) (idx byte : BitVec 8) (h : 31 < idx.toNat) :
    exec (.txbufWr idx byte) s = .next (reject .idx s) := by
  simp only [exec, execTxbufWr, unsignedOperand, gt_iff_lt, if_pos h]

/-- Settles O41: the index in range and past it, and the reserved fields of a TXBUF_WR word. -/
theorem txbufWrWritesOneByte : Obligations.TxbufWrWritesOneByte := by
  refine ⟨exec_txbufWr_of_lt, exec_txbufWr_of_gt, ?_⟩
  intro s w rest hw hop hmask
  exact step_of_reserved_field (k := .txbufWr) hw hop hmask

/-! ### TX_ACK_BIT and TX_SET_RX (46 R1013, R1014) -/

/-- TX_ACK_BIT clears TX_BIT_PENDING with the answer 0 (46 R1013). -/
theorem exec_txAckBit (s : State) :
    exec .txAckBit s = .next (respond 0 { s with tx := { s.tx with txBitPending := false } }) := rfl

/-- TX_SET_RX clears TX_MODE with the answer 0 (46 R1014). -/
theorem exec_txSetRx (s : State) :
    exec .txSetRx s = .next (respond 0 { s with tx := { s.tx with txMode := false } }) := rfl

/-- Settles O46: the one flag each of the two commands writes, and their only words, 0x40000000 and 0x48000000. -/
theorem txAckBitAndTxSetRxClearTheirFlags : Obligations.TxAckBitAndTxSetRxClearTheirFlags := by
  refine ⟨exec_txAckBit, exec_txSetRx, ?_⟩
  rintro s w rest hw (⟨hop, hne⟩ | ⟨hop, hne⟩)
  · exact step_of_ne_only_word (k := .txAckBit) rfl hw hop hne
  · exact step_of_ne_only_word (k := .txSetRx) rfl hw hop hne

end Sys2Proof.Machine
end

section
/-! CRCEngine (47): the commands CRC_INIT and CRC_BYTE. -/

namespace Sys2Proof.Machine

/-- CRC_INIT sets CRC_REG to the seed and answers it (47 R1104). -/
theorem exec_crcInit (s : State) : exec .crcInit s = .next (setCrcReg 0xFFFF#16 s) := rfl

/-- CRC_BYTE sets CRC_REG to the step of CRC_REG with the byte and answers it (47 R1105). -/
theorem exec_crcByte (s : State) (byte : Byte) :
    exec (.crcByte byte) s = .next (setCrcReg (crcStep s.crc.crcTab s.crc.crcReg byte) s) := rfl

/-- The table index of a step, reg >> 8, is the register's high byte (47 R1102). -/
theorem toNat_highByte (reg : BitVec 16) : (reg.extractLsb' 8 8).toNat = reg.toNat / 256 := by
  rw [BitVec.extractLsb'_toNat, Nat.shiftRight_eq_div_pow]
  exact Nat.mod_eq_of_lt (Nat.div_lt_of_lt_mul reg.isLt)

/-- The step with the index written as a quotient; the default of the lookup is never used (47 R1102). -/
theorem crcStep_eq_getD (tab : Vector (BitVec 16) 256) (reg : BitVec 16) (byte : Byte) :
    crcStep tab reg byte = (reg <<< 8) ^^^ (tab[reg.toNat / 256]?.getD 0) ^^^ byte.setWidth 16 := by
  rw [← toNat_highByte, Vector.getElem?_eq_getElem (reg.extractLsb' 8 8).isLt, Option.getD_some, crcStep]

/-- Settles O47: the register that CRC_INIT writes, and the only word of CRC_INIT, 0x50000000. -/
theorem crcInitSeedsTheRegister : Obligations.CrcInitSeedsTheRegister := by
  refine ⟨exec_crcInit, fun s w rest hw hop hne => ?_⟩
  exact step_of_ne_only_word (k := .crcInit) rfl hw hop hne

/-- Settles O48: CRC_BYTE runs one step on the stored table, whose index is always in range. -/
theorem crcByteStepsTheRegister : Obligations.CrcByteStepsTheRegister := by
  rintro s byte v rfl
  rw [← crcStep_eq_getD]
  exact exec_crcByte s byte

end Sys2Proof.Machine
end

section
/-! Hardware reset (70 R1300): the registers ResetToBitSync and the zeroing leave, for any configuration, and what the
configuration the block was built with adds to them. -/

namespace Sys2Proof.Machine

/-- AGC_INIT_INDEX fits in GAIN_INDEX, since GAIN_LEN is at most 256 (00 R8). -/
theorem toNat_gainIndex_pllToBitSync {c : Config} (h : c.AgcOk) :
    (pllToBitSync c).gainIndex.toNat = c.agcInitIndex := by
  obtain ⟨-, -, hlen, -, hindex, -⟩ := h
  exact toNat_ofNat_of_lt (show c.agcInitIndex < 2 ^ 8 by omega)

/-- ResetToBitSync writes on the zeroed receive registers the values they already have (43 R720, 70 R1300). -/
@[simp] theorem rxToBitSync_rxZero : rxToBitSync rxZero = rxZero := rfl

/-- The receive registers after hardware reset (10 R106, 70 R1300). -/
@[simp] theorem resetWith_rx (c : Config) : (State.resetWith c).rx = rxZero := rxToBitSync_rxZero

/-- TX_DONE is clear after hardware reset: no bit number is past a length of 0 (46 R1015). -/
@[simp] theorem txDone_txZero : txDone txZero = false := rfl

/-- After hardware reset every flag of STATUS is clear and RX_MODE has the code 0 (10 R112, 70 R1300). -/
theorem statusWord_resetWith (c : Config) : statusWord (State.resetWith c) = 0 := by
  have htx : (State.resetWith c).tx = txZero := rfl
  rw [statusWord, resetWith_rx, htx, txDone_txZero]
  simp [State.resetWith, rxZero, txZero, pllToBitSync, squarerZero, validatorZero, rxModeCode]

/-- Settles O9: every register has the value its unit is zeroed to, except GAIN_INDEX, whose value needs the built
configuration to be well-formed, and STATUS, which is derived. -/
theorem hardwareResetValues : Obligations.HardwareResetValues := by
  obtain ⟨⟨-, hagc, -⟩, -⟩ := Config.build.wellFormed
  have hgain : State.reset.pll.gainIndex.toNat = State.reset.cfg.agcInitIndex :=
    toNat_gainIndex_pllToBitSync hagc
  have hrx : State.reset.rx = rxZero := resetWith_rx Config.build.cfg
  have hstatus : statusWord State.reset = 0 := statusWord_resetWith Config.build.cfg
  exact ⟨rfl, rfl, rfl, rfl, rfl, rfl, rfl, rfl, rfl, rfl, rfl, hgain, rfl, rfl, rfl, hrx, rfl, rfl, rfl, rfl, rfl,
    rfl, hstatus⟩

end Sys2Proof.Machine
end

section
/-! Encoding and decoding (30): decode and encode are inverse to each other, and the command words are the words that
match a row of the opcode map. -/

namespace Sys2Proof

/-! ### Decoding an encoded command -/

/-- The word of a command has the OP of the command's row and matches it (30 R303). -/
theorem encode_matches_row (i : Instr) :
    opField (encode i) = opField (matchOf (opcodeOf i)) ∧ encode i &&& maskOf (opcodeOf i) = matchOf (opcodeOf i) := by
  cases i with
  | nop => exact Laws.EncodeMatchesRow.nop
  | sample seed x => exact Laws.EncodeMatchesRow.sample seed x
  | rxReset => exact Laws.EncodeMatchesRow.rxReset
  | rxValidate => exact Laws.EncodeMatchesRow.rxValidate
  | rxAck => exact Laws.EncodeMatchesRow.rxAck
  | txbufWr idx byte => exact Laws.EncodeMatchesRow.txbufWr idx byte
  | txEncode len => exact Laws.EncodeMatchesRow.txEncode len
  | txNextBit => exact Laws.EncodeMatchesRow.txNextBit
  | txAckBit => exact Laws.EncodeMatchesRow.txAckBit
  | txSetRx => exact Laws.EncodeMatchesRow.txSetRx
  | crcInit => exact Laws.EncodeMatchesRow.crcInit
  | crcByte byte => exact Laws.EncodeMatchesRow.crcByte byte
  | read addr => exact Laws.EncodeMatchesRow.read addr

/-- The lowest field of a word. -/
theorem extractLsb'_append_low {n m : Nat} (x : BitVec n) (y : BitVec m) : (x ++ y).extractLsb' 0 m = y := by
  rw [BitVec.extractLsb'_append_eq_of_add_le (by omega), BitVec.extractLsb'_eq_self]

/-- The field above the lowest one. -/
theorem extractLsb'_append_middle {n m k : Nat} (x : BitVec n) (y : BitVec m) (z : BitVec k) :
    (x ++ y ++ z).extractLsb' k m = y := by
  rw [BitVec.extractLsb'_append_eq_of_le (le_refl k), Nat.sub_self, extractLsb'_append_low]

/-- The IDX field of TXBUF_WR stands above the byte and its reserved bits (30 R301). -/
theorem idxField_encode (idx byte : BitVec 8) : idxField (encode (.txbufWr idx byte)) = idx := by
  unfold idxField encode
  rw [BitVec.extractLsb'_append_eq_of_le (by omega)]
  exact extractLsb'_append_middle (0x05#5 ++ 0#3) idx 0#8

/-- The operands read from the word of a command are the command's (30 R301, R302). -/
theorem instrOf_encode (i : Instr) : instrOf (opcodeOf i) (encode i) = i := by
  cases i with
  | sample seed x =>
    exact congrArg₂ Instr.sample (extractLsb'_append_middle 0x01#5 seed x) (extractLsb'_append_low (0x01#5 ++ seed) x)
  | txbufWr idx byte =>
    exact congrArg₂ Instr.txbufWr (idxField_encode idx byte) (extractLsb'_append_low (0x05#5 ++ 0#3 ++ idx ++ 0#8) byte)
  | txEncode len => exact congrArg Instr.txEncode (extractLsb'_append_middle (0x06#5 ++ 0#3) len 0#16)
  | crcByte byte => exact congrArg Instr.crcByte (extractLsb'_append_low (0x0B#5 ++ 0#19) byte)
  | read addr => exact congrArg Instr.read (extractLsb'_append_low (0x0C#5 ++ 0#11) addr)
  | _ => rfl

/-- A word that matches a row decodes to the row's command with the operands of the word (30 R304). -/
theorem decode_of_matches {w : Word} {k : Opcode} (h : w &&& maskOf k = matchOf k) : decode w = .ok (instrOf k w) := by
  rw [decode_of_row (opcodeOfOp_of_matches h), if_pos h]

/-- Settles O1: the word of a command matches its row, and its fields are the operands. -/
theorem decodeOfEncodeIsTheCommand : Obligations.DecodeOfEncodeIsTheCommand := by
  intro i _
  obtain ⟨-, hmatch⟩ := encode_matches_row i
  rw [decode_of_matches hmatch, instrOf_encode]

/-! ### Encoding a decoded word -/

/-- A word that decodes matches a row, and decodes to the row's command (30 R304). -/
theorem matches_of_decode {w : Word} {i : Instr} (h : decode w = .ok i) :
    ∃ k, w &&& maskOf k = matchOf k ∧ i = instrOf k w := by
  rcases hrow : opcodeOfOp (opField w).toNat with _ | k
  · rw [decode_of_no_row hrow] at h
    cases h
  · rw [decode_of_row hrow] at h
    split at h
    case isTrue hmatch => exact ⟨k, hmatch, by cases h; rfl⟩
    case isFalse => cases h

/-- The command of row k with the operands of w is encoded by k's match value and, outside k's mask, the bits of w
(30 R301). -/
theorem encode_instrOf (k : Opcode) (w : Word) : encode (instrOf k w) = matchOf k ||| (w &&& ~~~maskOf k) := by
  cases k with
  | sample | txbufWr | txEncode | crcByte | read =>
    apply BitVec.eq_of_getLsbD_eq
    intro j hj
    simp only [instrOf, encode, matchOf, maskOf, seedField, xField, idxField, lenField, byteField, addrField,
      BitVec.getLsbD_append, BitVec.getLsbD_or, BitVec.getLsbD_and, BitVec.getLsbD_extractLsb']
    interval_cases j <;> simp
  | _ => simp [instrOf, encode, matchOf, maskOf]

/-- Settles O2: the mask fixes the bits of the match value, and the operands are the other bits. -/
theorem encodeOfDecodeIsTheWord : Obligations.EncodeOfDecodeIsTheWord := by
  intro w i h
  obtain ⟨k, hmatch, rfl⟩ := matches_of_decode h
  rw [encode_instrOf, ← hmatch, ← BitVec.and_or_distrib_left, BitVec.or_not_self, BitVec.and_allOnes]

/-! ### The command words -/

/-- A property of some row, row by row. -/
theorem exists_opcode_iff {P : Opcode → Prop} :
    (∃ k, P k) ↔ P .nop ∨ P .sample ∨ P .rxReset ∨ P .rxValidate ∨ P .rxAck ∨ P .txbufWr ∨ P .txEncode ∨
      P .txNextBit ∨ P .txAckBit ∨ P .txSetRx ∨ P .crcInit ∨ P .crcByte ∨ P .read := by
  constructor
  · rintro ⟨k, hk⟩
    cases k <;> simp only [hk, true_or, or_true]
  · rintro (h | h | h | h | h | h | h | h | h | h | h | h | h) <;> exact ⟨_, h⟩

/-- A word is a command exactly when it matches a row of the opcode map (30 R304). -/
theorem exists_decode_iff {w : Word} : (∃ i, decode w = .ok i) ↔ ∃ k, w &&& maskOf k = matchOf k := by
  constructor
  · rintro ⟨i, h⟩
    obtain ⟨k, hmatch, -⟩ := matches_of_decode h
    exact ⟨k, hmatch⟩
  · rintro ⟨k, hmatch⟩
    exact ⟨instrOf k w, decode_of_matches hmatch⟩

/-- Settles O3: the thirteen rows; a row without operands has the full mask and so one word. -/
theorem commandWordsAreTheRowsOfTheOpcodeMap : Obligations.CommandWordsAreTheRowsOfTheOpcodeMap := by
  intro w
  have hfull : w &&& 0xFFFFFFFF = w := and_fullMask w
  rw [exists_decode_iff, exists_opcode_iff]
  simp only [maskOf, matchOf, hfull]

/-- Settles O4: decode evaluated on the ten words. -/
theorem workedEncodingsDecode : Obligations.WorkedEncodingsDecode :=
  ⟨rfl, rfl, rfl, rfl, rfl, rfl, rfl, rfl, rfl, rfl⟩

end Sys2Proof
end

section
/-! The command cycle (40, 70): what each command can do, said once as `CommandEffect`, and the rules of the whole
machine that are read off it. -/

namespace Sys2Proof.Machine

/-! ### What a command can do -/

/-- The outcomes of a command, without the condition that chooses between the rejection and the meaning of a command
that can be rejected. An answer alone and a rejection are allowed to every command, which is all that the rules of the
whole machine need. -/
inductive CommandEffect (s : State) : Instr → State → Prop where
  | answered (i : Instr) (r : Word) : CommandEffect s i (respond r s)
  | rejected (i : Instr) (e : CmdError) : CommandEffect s i (reject e s)
  | sampled (seed : BitVec 11) (x : BitVec 16) :
    CommandEffect s (.sample seed x) (respond (statusWord (sampleChain seed x s)) (sampleChain seed x s))
  | rxReset : CommandEffect s .rxReset (respond 0 (resetToBitSync s))
  | validated : CommandEffect s .rxValidate (respond (validateResponse (validateMessage s)) (validateMessage s))
  | acknowledged :
    CommandEffect s .rxAck (respond 0 { s with validator := { s.validator with rxValid := false } })
  | stored (idx byte : BitVec 8) : CommandEffect s (.txbufWr idx byte)
    (respond 0 { s with tx := { s.tx with txuser := s.tx.txuser.setIfInBounds idx.toNat byte } })
  | encoded (len : BitVec 8) (h : len.toNat ≤ maxTxMsgLen) : CommandEffect s (.txEncode len)
    (respond (zext (encodeFrame len.toNat s).tx.txMsgLen) (encodeFrame len.toNat s))
  | served : CommandEffect s .txNextBit (respond (nextBitResponse (serveBit s.tx)) { s with tx := serveBit s.tx })
  | bitAcknowledged : CommandEffect s .txAckBit (respond 0 { s with tx := { s.tx with txBitPending := false } })
  | setToReceive : CommandEffect s .txSetRx (respond 0 { s with tx := { s.tx with txMode := false } })
  | crcSeeded : CommandEffect s .crcInit (setCrcReg crcSeed s)
  | crcStepped (byte : Byte) :
    CommandEffect s (.crcByte byte) (setCrcReg (crcStep s.crc.crcTab s.crc.crcReg byte) s)

/-- Every next state that exec answers is one of the outcomes (30 R303). -/
theorem exec_effect {i : Instr} {s t : State} (h : exec i s = .next t) : CommandEffect s i t := by
  cases i with
  | nop => cases h; exact .answered ..
  | sample seed x => cases h; exact .sampled ..
  | rxReset => cases h; exact .rxReset
  | rxValidate => cases h; exact .validated
  | rxAck => cases h; exact .acknowledged
  | txbufWr idx byte =>
    cases h
    split
    · exact .rejected ..
    · exact .stored ..
  | txEncode len =>
    cases h
    split
    case isTrue => exact .rejected ..
    case isFalse hle => exact .encoded len (Nat.le_of_not_gt hle)
  | txNextBit => cases h; exact .served
  | txAckBit => cases h; exact .bitAcknowledged
  | txSetRx => cases h; exact .setToReceive
  | crcInit => cases h; exact .crcSeeded
  | crcByte byte => cases h; exact .crcStepped ..
  | read addr =>
    cases h
    split
    · exact .answered ..
    · exact .rejected ..

/-- The port and ERR after the receive chain of one SAMPLE (40 R410). -/
theorem sampleChain_port (seed : BitVec 11) (x : BitVec 16) (s : State) :
    (sampleChain seed x s).cmdIn = s.cmdIn ∧ (sampleChain seed x s).responses = s.responses ∧
    (sampleChain seed x s).err = s.err := by
  have hframe := sampleChain_frame seed x s
  exact ⟨hframe.cmdIn, hframe.responses, hframe.err⟩

/-- A command takes no further word and returns one response (40 R400). -/
theorem CommandEffect.port {i : Instr} {s t : State} (h : CommandEffect s i t) :
    t.cmdIn = s.cmdIn ∧ ∃ r, t.responses = s.responses ++ [r] := by
  cases h with
  | sampled seed x =>
    obtain ⟨hcmd, hresp, -⟩ := sampleChain_port seed x s
    exact ⟨hcmd, _, congrArg (· ++ _) hresp⟩
  | validated =>
    have hframe := validateMessage_frame s
    exact ⟨hframe.cmdIn, _, congrArg (· ++ _) hframe.responses⟩
  | _ => exact ⟨rfl, _, rfl⟩

/-! ### The command cycle (40 R400) -/

/-- A waiting word that decodes is taken and its command executed. -/
theorem step_of_decode_ok {s : State} {w : Word} {rest : List Word} {i : Instr}
    (hw : s.cmdIn = w :: rest) (hi : decode w = .ok i) : step s = exec i { s with cmdIn := rest } := by
  simp only [step, takeCommand, hw, hi]

/-- With no word waiting the state is held (60 R1210). -/
theorem step_of_idle {s : State} (h : s.cmdIn = []) : step s = .next s := by
  simp only [step, takeCommand, h]

/-- Settles O5: the two equations of step. -/
theorem stepRunsTheDecodedCommand : Obligations.StepRunsTheDecodedCommand :=
  ⟨fun _ _ _ _ hw hi => step_of_decode_ok hw hi, fun _ h => step_of_idle h⟩

/-- Settles O7: a word that decodes is answered by its command, any other word by its rejection. -/
theorem everyCommandReturnsOneResponse : Obligations.EveryCommandReturnsOneResponse := by
  intro s w rest hw
  rcases hd : decode w with e | i
  · exact ⟨_, 0, step_of_decode_error hw hd, rfl, rfl⟩
  · obtain ⟨t, ht⟩ := exec_next i { s with cmdIn := rest }
    obtain ⟨hcmd, r, hresp⟩ := (exec_effect ht).port
    exact ⟨t, r, (step_of_decode_ok hw hd).trans ht, hcmd, hresp⟩

/-- A run whose first step answers a next state goes on from there. -/
theorem hostRun_succ_of_step {M : Host.Core} {s t : M.State} (k : Nat) (h : M.step s = .next t) :
    M.run (k + 1) s = M.run k t := by
  rw [Host.Core.run, h]

/-- Settles O8, by induction on the waiting words: each step takes one and answers it. -/
theorem runAnswersEveryCommand : Obligations.RunAnswersEveryCommand := by
  intro s
  induction hcmd : s.cmdIn generalizing s with
  | nil => exact ⟨s, [], rfl, hcmd, rfl, (List.append_nil _).symm⟩
  | cons w rest ih =>
    obtain ⟨u, r, hstep, hrest, hresp⟩ := everyCommandReturnsOneResponse s w rest hcmd
    obtain ⟨t, rs, hrun, hempty, hlen, hresps⟩ := ih u hrest
    refine ⟨t, r :: rs, (hostRun_succ_of_step (M := core) rest.length hstep).trans hrun, hempty,
      congrArg (· + 1) hlen, ?_⟩
    rw [hresps, hresp, List.append_assoc, List.singleton_append]

/-! ### ERR (10 R111) -/

/-- A command leaves ERR as it is or sets the bit of one error (60 R1202). -/
theorem CommandEffect.err {i : Instr} {s t : State} (h : CommandEffect s i t) :
    t.err = s.err ∨ ∃ e, t.err = s.err ||| errBit e := by
  cases h with
  | rejected i e => exact .inr ⟨e, rfl⟩
  | sampled seed x => exact .inl (sampleChain_port seed x s).2.2
  | validated => exact .inl (validateMessage_frame s).err
  | _ => exact .inl rfl

/-- A step leaves ERR as it is or sets the bit of one error (60 R1202). -/
theorem step_err {s t : State} (h : step s = .next t) : t.err = s.err ∨ ∃ e, t.err = s.err ||| errBit e := by
  rcases step_cases h with ⟨-, rfl⟩ | ⟨w, rest, e, -, -, rfl⟩ | ⟨w, rest, i, -, -, hexec⟩
  · exact .inl rfl
  · exact .inr ⟨.cmd, rfl⟩
  · exact (exec_effect hexec).err

/-- Settles O56: the bit gained is 0 or the bit of one of the four errors. -/
theorem errIsStickyAndGainsAtMostOneBit : Obligations.ErrIsStickyAndGainsAtMostOneBit := by
  intro s t h
  rcases step_err h with hsame | ⟨e, hgain⟩
  · exact ⟨0, .inl rfl, hsame.trans BitVec.or_zero.symm⟩
  · exact ⟨errBit e, by cases e <;> decide, hgain⟩

/-! ### The receive path and the arrays -/

/-- Settles O57: of the commands but SAMPLE, RX_RESET resets the receive path, RX_VALIDATE clears MSG_PENDING, and the
others leave both units alone. -/
theorem onlyReceiveCommandsChangeTheReceiver : Obligations.OnlyReceiveCommandsChangeTheReceiver := by
  intro i s t h hns
  rcases exec_receive_path h with ⟨seed, x, hi⟩ | ⟨hsq, ⟨rfl, hpll, hrx⟩ | ⟨rfl, hpll, hrx⟩ | ⟨hpll, hrx⟩⟩
  · exact absurd hi (hns seed x)
  · simp [hsq, hrx, rxToBitSync]
  · simp [hsq, hpll, hrx]
  · have hpend : i = .rxValidate → s.rx.msgPending = false := by
      rintro rfl
      cases h
      have hframe : s.rx = { s.rx with msgPending := false } := hrx.symm.trans (validateMessage_frame s).rx
      rw [hframe]
    simpa [hsq, hpll, hrx] using hpend

/-- RX_VALIDATE writes neither TXUSER nor TXDATA nor the CRC registers. -/
theorem validateMessage_arrays (s : State) :
    (validateMessage s).rx.rxbuf = s.rx.rxbuf ∧ (validateMessage s).tx = s.tx ∧ (validateMessage s).crc = s.crc ∧
    (validateMessage s).cfg = s.cfg := by
  have hframe := validateMessage_frame s
  exact ⟨by rw [hframe.rx], hframe.tx, hframe.crc, hframe.cfg⟩

/-- SAMPLE writes none of the arrays outside the receive path (20 R210). -/
theorem sampleChain_arrays (seed : BitVec 11) (x : BitVec 16) (s : State) :
    (sampleChain seed x s).validator = s.validator ∧ (sampleChain seed x s).tx = s.tx ∧
    (sampleChain seed x s).crc = s.crc ∧ (sampleChain seed x s).cfg = s.cfg := by
  have hframe := sampleChain_frame seed x s
  exact ⟨hframe.validator, hframe.tx, hframe.crc, hframe.cfg⟩

/-- Settles O58: the arrays each outcome of a command writes. -/
theorem eachArrayHasOneWriter : Obligations.EachArrayHasOneWriter := by
  intro i s t h
  cases exec_effect h with
  | sampled seed x =>
    obtain ⟨hval, htx, hcrc, hcfg⟩ := sampleChain_arrays seed x s
    simp [hval, htx, hcrc, hcfg]
  | validated =>
    obtain ⟨hbuf, htx, hcrc, hcfg⟩ := validateMessage_arrays s
    simp [hbuf, htx, hcrc, hcfg]
  | rxReset => simp [rxToBitSync]
  | encoded len => simp [loadFrame]
  | served => simp [serveBit]
  | _ => simp

end Sys2Proof.Machine
end

section
/-! ReceiveStateMachine (43): the receive step as one equation for each mode and event of the bit clock, and the
hold-off. -/

namespace Sys2Proof.Machine

/-! ### The bit clock (43 R710 to R713) -/

/-- The saturating count that R710 writes. -/
theorem satInc16_eq {v n : BitVec 16} (h : n.toNat = min (v.toNat + 1) 65535) : satInc16 v = n :=
  BitVec.eq_of_toNat_eq ((toNat_satInc16 v).trans h.symm)

/-- Outside the hold-off the receive step is the active one (43 R710). -/
theorem rxStep_of_active {s : State} (h : s.rx.mode ≠ .eopHoldOff) (w : Bool) (seed : BitVec 11) :
    rxStep w seed s = rxActive w seed s := if_neg h

/-- Outside FIND_BITSYNC a bit wrap arms a sample and releases the loop filter (43 R710, R711). -/
theorem bitWrapClock_of_synced {s : State} (h : s.rx.mode ≠ .findBitsync) (w : Bool) :
    bitWrapClock w (countSample s) =
      { s with
        pll := { s.pll with phaseHold := !w && s.pll.phaseHold }
        rx := { s.rx with bitDue := w || s.rx.bitDue, sinceTrans := satInc16 s.rx.sinceTrans } } := by
  cases w
  · rfl
  · simp [bitWrapClock, countSample, h]

/-- In FIND_BITSYNC a bit wrap only releases the loop filter (43 R710, R711). -/
theorem bitWrapClock_of_bitsync {s : State} (h : s.rx.mode = .findBitsync) (w : Bool) :
    bitWrapClock w (countSample s) =
      { s with
        pll := { s.pll with phaseHold := !w && s.pll.phaseHold }
        rx := { s.rx with sinceTrans := satInc16 s.rx.sinceTrans } } := by
  cases w
  · rfl
  · simp [bitWrapClock, countSample, h]

/-- The transition clock acts only on a transition in FIND_BITSYNC (43 R712). -/
theorem transitionClock_of_no_event {s : State} (h : ¬ (s.rx.mode = .findBitsync ∧ s.sq.trans = true)) :
    transitionClock s = s := if_neg h

/-- A transition in FIND_BITSYNC realigns the bit clock (43 R712). -/
theorem transitionClock_of_event {s : State} (h : s.rx.mode = .findBitsync ∧ s.sq.trans = true) :
    transitionClock s =
      { s with
        pll := { s.pll with cycle := 0, phaseHold := false }
        rx := { s.rx with
          detData := if outsideWindow s.cfg s.rx.sinceTrans then 0 else s.rx.detData
          sinceTrans := 0
          bitDue := true } } := if_pos h

/-- The receive step outside FIND_BITSYNC and the hold-off, up to the sample point. -/
theorem rxStep_of_synced {s : State} (hb : s.rx.mode ≠ .findBitsync) (hh : s.rx.mode ≠ .eopHoldOff) (w : Bool)
    (seed : BitVec 11) :
    rxStep w seed s = samplePoint seed { s with
      pll := { s.pll with phaseHold := !w && s.pll.phaseHold }
      rx := { s.rx with bitDue := w || s.rx.bitDue, sinceTrans := satInc16 s.rx.sinceTrans } } := by
  rw [rxStep_of_active hh, rxActive, bitWrapClock_of_synced hb, transitionClock_of_no_event]
  exact fun h => hb h.1

/-- The receive step in FIND_BITSYNC on a transition, up to the sample point. -/
theorem rxStep_of_transition {s : State} (hb : s.rx.mode = .findBitsync) (ht : s.sq.trans = true) (w : Bool)
    (seed : BitVec 11) :
    rxStep w seed s = samplePoint seed { s with
      pll := { s.pll with cycle := 0, phaseHold := false }
      rx := { s.rx with
        detData := if outsideWindow s.cfg (satInc16 s.rx.sinceTrans) then 0 else s.rx.detData
        sinceTrans := 0
        bitDue := true } } := by
  rw [rxStep_of_active (by rw [hb]; decide), rxActive, bitWrapClock_of_bitsync hb, transitionClock_of_event]
  exact ⟨hb, ht⟩

/-- The receive step in FIND_BITSYNC without a transition, up to the sample point. -/
theorem rxStep_of_no_transition {s : State} (hb : s.rx.mode = .findBitsync) (ht : s.sq.trans = false) (w : Bool)
    (seed : BitVec 11) :
    rxStep w seed s = samplePoint seed { s with
      pll := { s.pll with phaseHold := !w && s.pll.phaseHold }
      rx := { s.rx with sinceTrans := satInc16 s.rx.sinceTrans } } := by
  rw [rxStep_of_active (by rw [hb]; decide), rxActive, bitWrapClock_of_bitsync hb, transitionClock_of_no_event]
  exact fun h => Bool.false_ne_true (ht.symm.trans h.2)

/-- Settles O23: the sample point, reached with the bit due or not. -/
theorem bitWrapArmsTheSample : Obligations.BitWrapArmsTheSample := by
  rintro w seed s _ since hb hh rfl hsince
  rw [rxStep_of_synced hb hh, satInc16_eq hsince]
  exact ⟨fun hdue => samplePoint_of_due seed hdue, fun hdue => samplePoint_of_not_due seed hdue⟩

/-- The window of 43 R712 as two inequalities: both bounds are accepted. -/
theorem outsideWindow_iff (c : Config) (v : BitVec 16) :
    outsideWindow c v = true ↔
      v.toNat + c.bitTol < c.bitPeriodSamples ∨ c.bitPeriodSamples + c.bitTol < v.toNat := by
  unfold outsideWindow
  rw [decide_eq_true_iff]
  omega

/-- BIT_PHASE of a realigned bit clock (41 R507, 43 R712). -/
theorem bitPhase_of_cycle_zero (c : Config) {p : Pll} (h : p.cycle = 0) : bitPhase c p = p.phase.toNat / 1024 / 4 := by
  simp [bitPhase, h, phaseFracBits]

/-- Settles O24: the sample point, reached with a bit due and with the realigned BIT_PHASE. -/
theorem transitionRealignsTheBitClock : Obligations.TransitionRealignsTheBitClock := by
  rintro w seed s _ _ hb ht rfl rfl
  rw [rxStep_of_transition hb ht]
  simp only [outsideWindow_iff, toNat_satInc16]
  refine ⟨fun hle => samplePoint_of_not_due seed fun hdue => ?_, fun hlt => samplePoint_of_due seed ⟨rfl, ?_⟩⟩
  · rw [bitPhase_of_cycle_zero s.cfg rfl] at hdue
    exact absurd hdue.2 (Nat.not_lt.mpr hle)
  · rw [bitPhase_of_cycle_zero s.cfg rfl]
    exact hlt

/-- Settles O25: the sample point, reached with the bit due as it was. -/
theorem bitsyncSamplesOnlyArmedBits : Obligations.BitsyncSamplesOnlyArmedBits := by
  intro w seed s since hb ht hsince
  rw [rxStep_of_no_transition hb ht, satInc16_eq hsince]
  split
  case isTrue hdue => exact samplePoint_of_due seed hdue
  case isFalse hdue => exact samplePoint_of_not_due seed hdue

/-! ### The hold-off (43 R718, R720) -/

/-- The decrement of HOLD_OFF does not overflow in its range (10 R106). -/
theorem toInt_sub_one {h : BitVec 16} (hr : -1 ≤ h.toInt) : (h - 1).toInt = h.toInt - 1 := by
  have hlt := h.toInt_lt
  rw [BitVec.toInt_sub, show (1 : BitVec 16).toInt = 1 from rfl]
  apply Int.bmod_eq_of_le <;> norm_num at hlt ⊢ <;> omega

/-- The receive registers after the sample on which the hold-off runs out (43 R718, R720). -/
def rxReleased (trans : Bool) (r : Rx) : Rx :=
  { r with mode := .findBitsync, detData := 0, modeCounter := 0, holdOff := 0, bitDue := trans,
           sinceTrans := if trans then 0 else 1, polarity := false }

/-- After ResetToBitSync a sample without a bit wrap arms a bit on a transition and samples none (43 R712, R720). -/
theorem rxActive_resetToBitSync (seed : BitVec 11) (s : State) :
    rxActive false seed (resetToBitSync s) =
      { s with pll := pllToBitSync s.cfg, rx := rxReleased s.sq.trans s.rx } := by
  have hb : (resetToBitSync s).rx.mode = .findBitsync := rfl
  rw [← rxStep_of_active (by rw [hb]; decide)]
  cases ht : s.sq.trans with
  | true =>
    rw [rxStep_of_transition hb ht, samplePoint_of_not_due]
    · simp [resetToBitSync, rxToBitSync, rxReleased, pllToBitSync]
      exact ite_self _
    · rw [bitPhase_of_cycle_zero _ rfl]
      simp [resetToBitSync, pllToBitSync]
  | false =>
    rw [rxStep_of_no_transition hb ht, samplePoint_of_not_due]
    · simp [resetToBitSync, rxToBitSync, rxReleased, pllToBitSync, satInc16]
    · simp [resetToBitSync, rxToBitSync]

/-- The receive step in the hold-off: it counts down, or it resets the receiver within the same sample (43 R718). -/
theorem rxStep_of_holdOff {s : State} (hm : s.rx.mode = .eopHoldOff) (w : Bool) (seed : BitVec 11) :
    rxStep w seed s =
      if 0 < (s.rx.holdOff - 1).toInt then { s with rx := { s.rx with holdOff := s.rx.holdOff - 1 } }
      else { s with pll := pllToBitSync s.cfg, rx := rxReleased s.sq.trans s.rx } := by
  rw [rxStep, if_pos hm]
  dsimp only
  rw [rxActive_resetToBitSync]
  rfl

/-- A hold-off that has not run out only counts down (43 R718). -/
theorem rxStep_of_holding {s : State} (hm : s.rx.mode = .eopHoldOff) (h : 1 < s.rx.holdOff.toInt) (w : Bool)
    (seed : BitVec 11) : rxStep w seed s = { s with rx := { s.rx with holdOff := s.rx.holdOff - 1 } } := by
  rw [rxStep_of_holdOff hm, toInt_sub_one (by omega), if_pos (by omega)]

/-- A hold-off that has run out resets the receiver (43 R718, R720). -/
theorem rxStep_of_released {s : State} (hm : s.rx.mode = .eopHoldOff) (hr : -1 ≤ s.rx.holdOff.toInt)
    (h : s.rx.holdOff.toInt ≤ 1) (w : Bool) (seed : BitVec 11) :
    rxStep w seed s = { s with pll := pllToBitSync s.cfg, rx := rxReleased s.sq.trans s.rx } := by
  rw [rxStep_of_holdOff hm, toInt_sub_one hr, if_neg (by omega)]

/-- What a run of SAMPLEs from the hold-off s leaves unchanged in t. -/
structure HoldOffFrame (s t : State) : Prop where
  stat : t.stat = s.stat
  cfg : t.cfg = s.cfg
  validator : t.validator = s.validator
  tx : t.tx = s.tx
  crc : t.crc = s.crc
  err : t.err = s.err
  cmdIn : t.cmdIn = s.cmdIn

theorem HoldOffFrame.trans {s t u : State} (h : HoldOffFrame s t) (k : HoldOffFrame t u) : HoldOffFrame s u :=
  ⟨k.1.trans h.1, k.2.trans h.2, k.3.trans h.3, k.4.trans h.4, k.5.trans h.5, k.6.trans h.6, k.7.trans h.7⟩

/-- A 16-bit value up to 2047 is the same number read as signed. -/
theorem toInt_of_toNat_le {h : BitVec 16} (hle : h.toNat ≤ 2047) : h.toInt = h.toNat :=
  BitVec.toInt_eq_toNat_of_lt (by omega)

/-- One SAMPLE in a hold-off of more than one sample (40 R410, 43 R718). -/
theorem exec_sample_of_holding {s : State} (hm : s.rx.mode = .eopHoldOff) (hle : s.rx.holdOff.toNat ≤ 2047)
    (h : 1 < s.rx.holdOff.toNat) (seed : BitVec 11) (x : BitVec 16) :
    ∃ t, exec (.sample seed x) s = .next t ∧ HoldOffFrame s t ∧
      t.rx = { s.rx with holdOff := s.rx.holdOff - 1, bitEvt := false } ∧ t.pll = (track s.cfg x.toInt s.pll).1 := by
  refine ⟨_, rfl, ?_⟩
  rw [sampleChain, rxStep_of_holding (s := sampleSquare (sampleTrack x s)) hm (by simp [toInt_of_toNat_le hle]; omega)]
  exact ⟨⟨rfl, rfl, rfl, rfl, rfl, rfl, rfl⟩, rfl, rfl⟩

/-- The last SAMPLE of a hold-off (40 R410, 43 R718). -/
theorem exec_sample_of_released {s : State} (hm : s.rx.mode = .eopHoldOff) (h : s.rx.holdOff.toNat ≤ 1)
    (seed : BitVec 11) (x : BitVec 16) :
    ∃ t, exec (.sample seed x) s = .next t ∧ HoldOffFrame s t ∧
      t.rx = { rxReleased t.sq.trans s.rx with bitEvt := false } ∧ t.pll = pllToBitSync s.cfg := by
  have hint := toInt_of_toNat_le (h.trans (by norm_num))
  refine ⟨_, rfl, ?_⟩
  rw [sampleChain, rxStep_of_released (s := sampleSquare (sampleTrack x s))
    hm (by simp only [sampleSquare_rx, sampleTrack_rx]; omega)
    (by simp only [sampleSquare_rx, sampleTrack_rx]; omega)]
  exact ⟨⟨rfl, rfl, rfl, rfl, rfl, rfl, rfl⟩, rfl, rfl⟩

/-- A command ahead of a run. -/
theorem execAll_cons {i : Instr} {s t : State} (is : List Instr) (h : exec i s = .next t) :
    execAll (i :: is) s = execAll is t := by
  rw [execAll, h]

/-- SAMPLEs that do not end the hold-off count it down, and Track alone moves the PLL (43 R718). -/
theorem execAll_samples_holding (xs : List (BitVec 11 × BitVec 16)) {s : State} (hm : s.rx.mode = .eopHoldOff)
    (hle : s.rx.holdOff.toNat ≤ 2047) (hlen : xs.length < max s.rx.holdOff.toNat 1) :
    ∃ t, execAll (xs.map fun p => Instr.sample p.1 p.2) s = .next t ∧ HoldOffFrame s t ∧
      t.rx = { s.rx with
        holdOff := BitVec.ofNat 16 (s.rx.holdOff.toNat - xs.length), bitEvt := xs.isEmpty && s.rx.bitEvt } ∧
      t.pll = feedTrack s.cfg (xs.map fun p => p.2.toInt) s.pll := by
  induction xs generalizing s with
  | nil => exact ⟨s, rfl, ⟨rfl, rfl, rfl, rfl, rfl, rfl, rfl⟩, by simp, rfl⟩
  | cons p xs ih =>
    rw [List.length_cons] at hlen
    obtain ⟨u, hu, hframe, hrx, hpll⟩ := exec_sample_of_holding hm hle (by omega) p.1 p.2
    have hcount : u.rx.holdOff.toNat = s.rx.holdOff.toNat - 1 := by
      rw [hrx]
      dsimp only
      bv_omega
    obtain ⟨t, ht, hframe', hrx', hpll'⟩ := ih (s := u) (by rw [hrx]; exact hm) (by omega) (by omega)
    refine ⟨t, (execAll_cons _ hu).trans ht, hframe.trans hframe', ?_, ?_⟩
    · rw [hrx', hcount, hrx, List.length_cons, Nat.sub_sub, Nat.add_comm 1]
      simp
    · rw [hpll', hpll, hframe.cfg]
      rfl

/-- Track, sample by sample, writes neither hold (41 R500). -/
theorem feedTrack_holds (c : Config) (xs : List Int) (p : Pll) :
    (feedTrack c xs p).agcHold = p.agcHold ∧ (feedTrack c xs p).phaseHold = p.phaseHold := by
  induction xs generalizing p with
  | nil => exact ⟨rfl, rfl⟩
  | cons x xs ih =>
    obtain ⟨hagc, hphase⟩ := track_holds c x p
    obtain ⟨hagc', hphase'⟩ := ih (track c x p).1
    exact ⟨hagc'.trans hagc, hphase'.trans hphase⟩

/-- SAMPLEs that use up the hold-off: all but the last count it down, and the last resets the receiver (43 R718). -/
theorem execAll_samples_released (xs : List (BitVec 11 × BitVec 16)) {s : State} (hm : s.rx.mode = .eopHoldOff)
    (hle : s.rx.holdOff.toNat ≤ 2047) (hlen : xs.length = max s.rx.holdOff.toNat 1) :
    ∃ t, execAll (xs.map fun p => Instr.sample p.1 p.2) s = .next t ∧ HoldOffFrame s t ∧
      t.rx = { rxReleased t.sq.trans s.rx with bitEvt := false } ∧ t.pll = pllToBitSync s.cfg := by
  obtain rfl | ⟨ys, p, rfl⟩ := xs.eq_nil_or_concat'
  · rw [List.length_nil] at hlen
    omega
  rw [List.length_append, List.length_singleton] at hlen
  obtain ⟨u, hu, hframe, hrx, -⟩ := execAll_samples_holding ys hm hle (by omega)
  have hcount : u.rx.holdOff.toNat ≤ 1 := by
    rw [hrx]
    dsimp only
    rw [toNat_ofNat_of_lt] <;> omega
  obtain ⟨t, ht, hframe', hrx', hpll⟩ := exec_sample_of_released (s := u) (by rw [hrx]; exact hm) hcount p.1 p.2
  refine ⟨t, ?_, hframe.trans hframe', by rw [hrx', hrx]; rfl, by rw [hpll, hframe.cfg]⟩
  rw [List.map_append, List.map_singleton, execAll_concat _ _ hu, ht]

/-- Settles O26: the two cases of the step in the hold-off, and a run of samples that stops before the hold-off ends
or with it. -/
theorem holdOffLastsItsSeed : Obligations.HoldOffLastsItsSeed := by
  refine ⟨fun w seed s hm hr =>
    ⟨fun h => rxStep_of_holding hm h w seed, fun h => rxStep_of_released hm hr h w seed⟩, ?_⟩
  rintro xs s _ hm rfl hle hlen
  rcases hlen.lt_or_eq with hlt | heq
  · obtain ⟨t, ht, ⟨hstat, hcfg, hval, htx, hcrc, herr, hcmd⟩, hrx, hpll⟩ := execAll_samples_holding xs hm hle hlt
    have hholds : t.pll.agcHold = s.pll.agcHold ∧ t.pll.phaseHold = s.pll.phaseHold := by
      rw [hpll]
      exact feedTrack_holds ..
    exact ⟨t, ht, fun _ => ⟨hrx, hpll, hholds⟩, fun h => absurd h hlt.ne, hstat, hcfg, hval, htx, hcrc, herr, hcmd⟩
  · obtain ⟨t, ht, ⟨hstat, hcfg, hval, htx, hcrc, herr, hcmd⟩, hrx, hpll⟩ := execAll_samples_released xs hm hle heq
    exact ⟨t, ht, fun h => absurd heq h.ne, fun _ => ⟨hrx, hpll⟩, hstat, hcfg, hval, htx, hcrc, herr, hcmd⟩

end Sys2Proof.Machine
end

section
/-! ReceiveStateMachine (43): the equations of SampleBit and CodewordDone that match or end a message, and what one
SAMPLE can do to the PLL registers, RXBUF and STAT. -/

namespace Sys2Proof.Machine

/-! ### SampleBit in FIND_BITSYNC and FIND_WORDSYNC (43 R714, R715) -/

/-- The receiver's shift, given as arithmetic (20 R205). -/
theorem shiftIn_eq {v d : BitVec 16} {b : Bool} (h : d.toNat = (2 * v.toNat + b.toNat) % 2 ^ 16) : shiftIn v b = d :=
  BitVec.eq_of_toNat_eq ((toNat_shiftIn v b).trans h.symm)

/-- A bit that completes the bit-sync pattern (43 R714). -/
theorem sampleBit_of_bitsync_match {s : State} (hm : s.rx.mode = .findBitsync) {b : Bool}
    (h : shiftIn s.rx.detData b = bitsyncPattern) (seed : BitVec 11) :
    sampleBit b seed s = countEvent .bitsyncFound
      { s with
        rx := { s.rx with mode := .findWordsync, detData := 0, modeCounter := 0, modeSnap := s.tx.txMode }
        pll := { s.pll with agcHold := true } } := by
  simp only [sampleBit, hm, sampleBitsync, h, if_true]

/-- A bit that does not complete the bit-sync pattern is shifted in (43 R714). -/
theorem sampleBit_of_bitsync_shift {s : State} (hm : s.rx.mode = .findBitsync) {b : Bool}
    (h : shiftIn s.rx.detData b ≠ bitsyncPattern) (seed : BitVec 11) :
    sampleBit b seed s = { s with rx := { s.rx with detData := shiftIn s.rx.detData b } } := by
  simp only [sampleBit, hm, sampleBitsync, h, if_false]

/-- Settles O27: the pattern is completed or not. -/
theorem bitsyncPatternStartsWordsync : Obligations.BitsyncPatternStartsWordsync := by
  intro b seed s d hm hd
  have hshift := shiftIn_eq hd
  refine ⟨fun hmatch => ?_, fun hmiss => ?_⟩
  · rw [sampleBit_of_bitsync_match hm (hshift.trans hmatch)]
    rfl
  · rw [sampleBit_of_bitsync_shift hm (hshift ▸ hmiss), hshift]

/-- A bit that completes the word-sync pattern in one of its polarities (43 R715). -/
theorem sampleBit_of_wordsync_match {s : State} (hm : s.rx.mode = .findWordsync) {b : Bool}
    (h : shiftIn s.rx.detData b = wordsyncPattern ∨ shiftIn s.rx.detData b = wordsyncInverted) (seed : BitVec 11) :
    sampleBit b seed s = countEvent .wordsyncFound { s with rx := { s.rx with
      polarity := decide (shiftIn s.rx.detData b = wordsyncInverted), mode := .findData, byteCount := 0,
      bitCount := 11, detData := 0, modeCounter := 0 } } := by
  simp only [sampleBit, hm, sampleWordsync, h, if_true]
  rfl

/-- The bit on which the word-sync timeout fires (43 R715). -/
theorem sampleBit_of_wordsync_timeout {s : State} (hm : s.rx.mode = .findWordsync) {b : Bool}
    (h : ¬ (shiftIn s.rx.detData b = wordsyncPattern ∨ shiftIn s.rx.detData b = wordsyncInverted))
    (ht : s.cfg.findWordsyncTimeout < (s.rx.modeCounter + 1).toNat) (seed : BitVec 11) :
    sampleBit b seed s = resetToBitSync (countEvent .wordsyncTimeout { s with rx := { s.rx with
      detData := shiftIn s.rx.detData b, modeCounter := s.rx.modeCounter + 1 } }) := by
  simp only [sampleBit, hm, sampleWordsync, h, if_false, gt_iff_lt, ht, if_true]

/-- A bit that neither completes the pattern nor reaches the timeout is shifted in and counted (43 R715). -/
theorem sampleBit_of_wordsync_shift {s : State} (hm : s.rx.mode = .findWordsync) {b : Bool}
    (h : ¬ (shiftIn s.rx.detData b = wordsyncPattern ∨ shiftIn s.rx.detData b = wordsyncInverted))
    (ht : (s.rx.modeCounter + 1).toNat ≤ s.cfg.findWordsyncTimeout) (seed : BitVec 11) :
    sampleBit b seed s = { s with rx := { s.rx with
      detData := shiftIn s.rx.detData b, modeCounter := s.rx.modeCounter + 1 } } := by
  simp only [sampleBit, hm, sampleWordsync, h, if_false, gt_iff_lt, Nat.not_lt.mpr ht]

/-- Settles O28: the match, the timeout and the shift. -/
theorem wordsyncPatternOrTimeout : Obligations.WordsyncPatternOrTimeout := by
  rintro b seed s d _ hm hd rfl
  have hshift := shiftIn_eq hd
  have hmiss (h : d ≠ 0x567B#16) (h' : d ≠ 0xA984#16) :
      ¬ (shiftIn s.rx.detData b = wordsyncPattern ∨ shiftIn s.rx.detData b = wordsyncInverted) := by
    rw [hshift]
    exact not_or.mpr ⟨h, h'⟩
  refine ⟨fun h => ?_, fun h h' ht => ?_, fun h h' ht => ?_⟩
  · rw [sampleBit_of_wordsync_match hm (by rwa [hshift]), hshift]
    rfl
  · rw [sampleBit_of_wordsync_timeout hm (hmiss h h') ht]
    rfl
  · rw [sampleBit_of_wordsync_shift hm (hmiss h h') ht, hshift]

/-! ### CodewordDone, cases (a) to (c) (43 R717) -/

/-- Case (a): the EOP timeout. -/
theorem codewordDone_of_timeout (seed : BitVec 11) {s : State} (h : s.cfg.findEopTimeout < s.rx.modeCounter.toNat) :
    codewordDone seed s = resetToBitSync (countEvent .eopTimeout s) := if_pos h

/-- Case (b): the message is too long. -/
theorem codewordDone_of_too_long (seed : BitVec 11) {s : State} (htime : s.rx.modeCounter.toNat ≤ s.cfg.findEopTimeout)
    (h : maxRxMsgLen ≤ s.rx.byteCount.toNat) : codewordDone seed s = resetToBitSync (countEvent .msgTooLong s) := by
  rw [codewordDone, if_neg (Nat.not_lt.mpr htime), if_pos h]

/-- Case (c): the EOP. -/
theorem codewordDone_of_eop (seed : BitVec 11) {s : State} (htime : s.rx.modeCounter.toNat ≤ s.cfg.findEopTimeout)
    (hroom : s.rx.byteCount.toNat < maxRxMsgLen) (h : s.rx.detData = eopPattern) :
    codewordDone seed s = eopFound seed s := by
  rw [codewordDone, if_neg (Nat.not_lt.mpr htime), if_neg (Nat.not_le.mpr hroom), if_pos h]

/-- Settles O30: the three cases in their order. -/
theorem codewordEndsTheMessage : Obligations.CodewordEndsTheMessage := by
  intro seed s
  refine ⟨fun h => ?_, fun htime h => ?_, fun htime hroom h => ?_⟩
  · rw [codewordDone_of_timeout seed h]
    rfl
  · rw [codewordDone_of_too_long seed htime h]
    rfl
  · rw [codewordDone_of_eop seed htime hroom h]
    rfl

/-! ### What one SAMPLE can do -/

/-- The receive step writes only CYCLE and the two holds of a PLL register file, CYCLE as it was or 0 (43 R710). -/
def ClockOnly (p q : Pll) : Prop :=
  q = { p with cycle := q.cycle, agcHold := q.agcHold, phaseHold := q.phaseHold } ∧ (q.cycle = p.cycle ∨ q.cycle = 0)

theorem ClockOnly.refl (p : Pll) : ClockOnly p p := ⟨rfl, .inl rfl⟩

theorem ClockOnly.trans {p q r : Pll} (h : ClockOnly p q) (k : ClockOnly q r) : ClockOnly p r := by
  obtain ⟨heq, hcycle⟩ := h
  obtain ⟨heq', hcycle'⟩ := k
  refine ⟨by rw [heq', heq], ?_⟩
  rcases hcycle' with hsame | hzero
  · rwa [hsame]
  · exact .inr hzero

/-- What a part of the receive step can do to the PLL registers, RXBUF and STAT (43 R710 to R720). -/
structure ReceiveEffect (s t : State) : Prop where
  pll : t.pll = pllToBitSync s.cfg ∨ ClockOnly s.pll t.pll
  rxbuf : ∀ (i : Nat) (h : i < 36), i ≠ s.rx.byteCount.toNat → t.rx.rxbuf[i] = s.rx.rxbuf[i]
  stat : t.stat = s.stat ∨
    ∃ n, (statIndex n).val < 7 ∧ t.stat = s.stat.set (statIndex n) (s.stat[statIndex n] + 1)

/-- A part of the receive step that stores no byte and counts no event. -/
structure QuietEffect (s t : State) : Prop where
  cfg : t.cfg = s.cfg
  pll : ClockOnly s.pll t.pll
  rxbuf : t.rx.rxbuf = s.rx.rxbuf
  byteCount : t.rx.byteCount = s.rx.byteCount
  stat : t.stat = s.stat

theorem QuietEffect.trans_effect {s t u : State} (h : QuietEffect s t) (k : ReceiveEffect t u) : ReceiveEffect s u := by
  obtain ⟨hcfg, hpll, hbuf, hcount, hstat⟩ := h
  obtain ⟨kpll, kbuf, kstat⟩ := k
  rw [hcfg] at kpll
  rw [hbuf, hcount] at kbuf
  rw [hstat] at kstat
  exact ⟨kpll.imp_right hpll.trans, kbuf, kstat⟩

theorem QuietEffect.effect {s t : State} (h : QuietEffect s t) : ReceiveEffect s t :=
  ⟨.inr h.pll, fun i hi _ => by rw [h.rxbuf], .inl h.stat⟩

/-- ResetToBitSync after one of the first seven events is counted. -/
theorem resetToBitSync_countEvent_effect (s : State) {n : StatName} (h : (statIndex n).val < 7) :
    ReceiveEffect s (resetToBitSync (countEvent n s)) :=
  ⟨.inl rfl, fun _ _ _ => rfl, .inr ⟨n, h, rfl⟩⟩

/-- A stored codeword writes RXBUF at BYTE_COUNT and counts at most the parity error (43 R717 (d)). -/
theorem storeCodeword_effect (s : State) :
    ReceiveEffect s (nextCodeword (enterFindEop (checkParity (storeByte s)))) := by
  refine ⟨.inr ?_, fun i hi hne => ?_, ?_⟩
  · simp only [nextCodeword_pll, enterFindEop_pll, checkParity_pll, storeByte_pll]
    exact .refl _
  · have hbuf : (nextCodeword (enterFindEop (checkParity (storeByte s)))).rx.rxbuf = (storeByte s).rx.rxbuf := by
      simp only [nextCodeword, enterFindEop_rx, checkParity_rx]
      split <;> rfl
    simp only [hbuf]
    simp only [storeByte, Vector.getElem_setIfInBounds, if_neg hne.symm]
  · simp only [nextCodeword_stat, enterFindEop_stat, checkParity]
    split
    · exact .inr ⟨.rxErrParity, by decide, rfl⟩
    · exact .inl rfl

theorem codewordDone_effect (seed : BitVec 11) (s : State) : ReceiveEffect s (codewordDone seed s) := by
  unfold codewordDone
  split_ifs
  · exact resetToBitSync_countEvent_effect s (by decide)
  · exact resetToBitSync_countEvent_effect s (by decide)
  · exact ⟨.inr (.refl _), fun _ _ _ => rfl, .inr ⟨.eopFound, by decide, rfl⟩⟩
  · exact storeCodeword_effect s

theorem sampleData_effect (b : Bool) (seed : BitVec 11) (s : State) : ReceiveEffect s (sampleData b seed s) := by
  unfold sampleData
  dsimp only
  split
  · refine QuietEffect.trans_effect ?_ (codewordDone_effect seed _)
    exact ⟨rfl, .refl _, rfl, rfl, rfl⟩
  · exact QuietEffect.effect ⟨rfl, .refl _, rfl, rfl, rfl⟩

theorem sampleBitsync_effect (b : Bool) (s : State) : ReceiveEffect s (sampleBitsync b s) := by
  unfold sampleBitsync
  dsimp only
  split
  · exact ⟨.inr ⟨rfl, .inl rfl⟩, fun _ _ _ => rfl, .inr ⟨.bitsyncFound, by decide, rfl⟩⟩
  · exact QuietEffect.effect ⟨rfl, .refl _, rfl, rfl, rfl⟩

theorem sampleWordsync_effect (b : Bool) (s : State) : ReceiveEffect s (sampleWordsync b s) := by
  unfold sampleWordsync
  dsimp only
  split_ifs
  · exact ⟨.inr (.refl _), fun _ _ _ => rfl, .inr ⟨.wordsyncFound, by decide, rfl⟩⟩
  · refine QuietEffect.trans_effect ?_ (resetToBitSync_countEvent_effect _ (by decide))
    exact ⟨rfl, .refl _, rfl, rfl, rfl⟩
  · exact QuietEffect.effect ⟨rfl, .refl _, rfl, rfl, rfl⟩

theorem sampleBit_effect (b : Bool) (seed : BitVec 11) (s : State) : ReceiveEffect s (sampleBit b seed s) := by
  unfold sampleBit
  split
  · exact sampleBitsync_effect b s
  · exact sampleWordsync_effect b s
  · exact sampleData_effect b seed s
  · exact sampleData_effect b seed s
  · exact QuietEffect.effect ⟨rfl, .refl _, rfl, rfl, rfl⟩

theorem samplePoint_effect (seed : BitVec 11) (s : State) : ReceiveEffect s (samplePoint seed s) := by
  unfold samplePoint
  split
  · have hquiet : QuietEffect s { s with
        pll := { s.pll with phaseHold := true }
        rx := { s.rx with bitDue := false, bitEvt := true } } := ⟨rfl, ⟨rfl, .inl rfl⟩, rfl, rfl, rfl⟩
    exact hquiet.trans_effect (sampleBit_effect _ seed _)
  · exact QuietEffect.effect ⟨rfl, .refl _, rfl, rfl, rfl⟩

/-- The receive step: the bit clock is quiet, and then the sample point or the end of the hold-off. -/
theorem rxStep_effect (w : Bool) (seed : BitVec 11) (s : State) : ReceiveEffect s (rxStep w seed s) := by
  by_cases hh : s.rx.mode = .eopHoldOff
  · rw [rxStep_of_holdOff hh]
    split
    · exact QuietEffect.effect ⟨rfl, .refl _, rfl, rfl, rfl⟩
    · exact ⟨.inl rfl, fun _ _ _ => rfl, .inl rfl⟩
  by_cases hb : s.rx.mode = .findBitsync
  · cases ht : s.sq.trans with
    | true =>
      rw [rxStep_of_transition hb ht]
      refine QuietEffect.trans_effect ?_ (samplePoint_effect seed _)
      exact ⟨rfl, ⟨rfl, .inr rfl⟩, rfl, rfl, rfl⟩
    | false =>
      rw [rxStep_of_no_transition hb ht]
      refine QuietEffect.trans_effect ?_ (samplePoint_effect seed _)
      exact ⟨rfl, ⟨rfl, .inl rfl⟩, rfl, rfl, rfl⟩
  · rw [rxStep_of_synced hb hh]
    refine QuietEffect.trans_effect ?_ (samplePoint_effect seed _)
    exact ⟨rfl, ⟨rfl, .inl rfl⟩, rfl, rfl, rfl⟩

/-- SAMPLE runs the receive chain and answers STATUS (40 R403, R410). -/
theorem exec_sample (seed : BitVec 11) (x : BitVec 16) (s : State) :
    exec (.sample seed x) s = .next (respond (statusWord (sampleChain seed x s)) (sampleChain seed x s)) := rfl

/-- Settles O22: the chain is the one exec runs, and its frame and effect are those of the receive step. -/
theorem sampleRunsTheReceiveChain : Obligations.SampleRunsTheReceiveChain := by
  rintro seed x s _ _ rfl rfl
  have hframe := sampleChain_frame seed x s
  obtain ⟨hpll, hbuf, -⟩ := rxStep_effect (track s.cfg x.toInt s.pll).2 seed (sampleSquare (sampleTrack x s))
  refine ⟨?_, hframe.sq, hpll, hbuf, hframe.cfg, hframe.validator, hframe.tx, hframe.crc, hframe.err, hframe.cmdIn⟩
  rw [exec_sample, respond, hframe.responses]
  rfl

/-- Square sets TRANS exactly when it flips DET_BIT (42 R600, R602). -/
theorem square_trans_iff (c : Config) (v : Int) (q : Squarer) :
    (square c v q).trans = true ↔ (square c v q).detBit ≠ q.detBit := by
  unfold square
  split_ifs <;> simp

/-- Settles O21: the receive step leaves the slicer as Square left it. -/
theorem transMarksTheFlip : Obligations.TransMarksTheFlip := by
  intro seed x s t h
  cases h
  rw [respond_sq, (sampleChain_frame seed x s).sq]
  exact square_trans_iff _ _ _

/-! ### STAT (10 R110) -/

/-- RX_VALIDATE counts at most one of the last two events (44 R801). -/
theorem validateMessage_stat (s : State) :
    (validateMessage s).stat = s.stat ∨ (validateMessage s).stat = s.stat.set 7 (s.stat[7] + 1) ∨
    (validateMessage s).stat = s.stat.set 8 (s.stat[8] + 1) := by
  unfold validateMessage
  split
  · split
    · exact .inr (.inl rfl)
    · exact .inr (.inr rfl)
  · exact .inl rfl

/-- A command leaves STAT as it is, or is SAMPLE and counts one of the first seven events, or is RX_VALIDATE and counts
one of the last two (43 R724). -/
theorem CommandEffect.stat {i : Instr} {s t : State} (h : CommandEffect s i t) :
    t.stat = s.stat ∨
    (∃ seed x, i = .sample seed x) ∧ (∃ n, ∃ h : n < 7, t.stat = s.stat.set n (s.stat[n] + 1)) ∨
    i = .rxValidate ∧ (t.stat = s.stat.set 7 (s.stat[7] + 1) ∨ t.stat = s.stat.set 8 (s.stat[8] + 1)) := by
  cases h with
  | sampled seed x =>
    rcases (rxStep_effect _ seed (sampleSquare (sampleTrack x s))).stat with hsame | ⟨n, hn, hcount⟩
    · exact .inl hsame
    · exact .inr (.inl ⟨⟨seed, x, rfl⟩, statIndex n, hn, hcount⟩)
  | validated => exact (validateMessage_stat s).imp_right fun h => .inr ⟨rfl, h⟩
  | _ => exact .inl rfl

/-- A counter after one event is counted. -/
theorem getElem_set_add_one (v : Vector (BitVec 32) 9) {n : Nat} (hn : n < 9) (k : Nat) (hk : k < 9) :
    (v.set n (v[n] + 1))[k] = if n = k then v[k] + 1 else v[k] := by
  rw [Vector.getElem_set]
  split
  case isTrue h => subst h; rfl
  case isFalse => rfl

/-- Settles O59: the counters each outcome of a command moves. -/
theorem statisticsOnlyCount : Obligations.StatisticsOnlyCount := by
  intro i s t h
  rcases (exec_effect h).stat with hsame | ⟨hi, n, hn, hcount⟩ | ⟨hi, hcount | hcount⟩
  · simp [hsame]
  all_goals simp only [hcount, getElem_set_add_one]
  · refine ⟨fun k hk => by split <;> simp, fun _ _ _ => hi, fun hlast => ?_⟩
    simp [show n ≠ 7 by omega, show n ≠ 8 by omega] at hlast
  · exact ⟨fun k hk => by split <;> simp, fun k hk hne => by simp [show 7 ≠ k by omega] at hne, fun _ => hi⟩
  · exact ⟨fun k hk => by split <;> simp, fun k hk hne => by simp [show 8 ≠ k by omega] at hne, fun _ => hi⟩

end Sys2Proof.Machine
end

section
/-! CarrierPLL (41): the overflow loop of step 1, the correlation as integers, and the invariant that every command
keeps (10 R103, 41 R516). -/

namespace Sys2Proof.Machine

/-! ### The overflow loop (41 R502 to R504) -/

/-- A value that does not fit saturates to the bound on its side (00 R11). -/
theorem sat16_of_not_fits {v : Int} (h : ¬ Fits16 v) : sat16 v = if v < 0 then -32768 else 32767 := by
  unfold Fits16 at h
  unfold sat16 clamp
  split_ifs <;> omega

/-- With a turn for each index below it, the loop passes the k indices at which the product does not fit, and stops at
the next one, where the product fits, or at index 0, where it saturates. -/
theorem agcLoop_spec {c : Config} (hdec : 1 ≤ c.agcOvfDec) (x : Int) {fuel g : Nat} (hfuel : g < fuel) :
    ∃ k, (agcLoop c x fuel g).2 = g - k * c.agcOvfDec ∧
      (∀ j < k, g - j * c.agcOvfDec ≠ 0 ∧ ¬ Fits16 (agcScale c x (g - j * c.agcOvfDec))) ∧
      ((Fits16 (agcScale c x (g - k * c.agcOvfDec)) ∧
          (agcLoop c x fuel g).1 = agcScale c x (g - k * c.agcOvfDec)) ∨
        (¬ Fits16 (agcScale c x (g - k * c.agcOvfDec)) ∧ g - k * c.agcOvfDec = 0 ∧
          (agcLoop c x fuel g).1 = sat16 (agcScale c x (g - k * c.agcOvfDec)))) := by
  induction fuel generalizing g with
  | zero => omega
  | succ fuel ih =>
    unfold agcLoop
    split_ifs with hfits hzero
    · exact ⟨0, by simp, by simp, .inl (by simpa using hfits)⟩
    · exact ⟨0, by simp, by simp, .inr (by simpa [hzero] using hfits)⟩
    · obtain ⟨k, hindex, hpassed, hstop⟩ := ih (g := g - c.agcOvfDec) (by omega)
      have hshift (j : Nat) : g - c.agcOvfDec - j * c.agcOvfDec = g - (j + 1) * c.agcOvfDec := by
        rw [Nat.sub_sub, Nat.succ_mul, Nat.add_comm]
      simp only [hshift] at hindex hpassed hstop
      refine ⟨k + 1, hindex, fun j hj => ?_, hstop⟩
      cases j with
      | zero =>
        rw [Nat.zero_mul, Nat.sub_zero]
        exact ⟨hzero, hfits⟩
      | succ j => exact hpassed j (by omega)

/-- Settles O15: the loop has GAIN_INDEX + 1 turns, one more than there are indices below GAIN_INDEX. -/
theorem agcPrescaleLowersTheGainUntilItFits : Obligations.AgcPrescaleLowersTheGainUntilItFits := by
  intro c x p henable hdec
  have hpre : agcPrescale c x p =
      ((agcLoop c x (p.gainIndex.toNat + 1) p.gainIndex.toNat).1,
       { p with gainIndex := BitVec.ofNat 8 (agcLoop c x (p.gainIndex.toNat + 1) p.gainIndex.toNat).2 }) :=
    if_pos henable
  obtain ⟨k, hindex, hpassed, hstop⟩ := agcLoop_spec hdec x (Nat.lt_succ_self p.gainIndex.toNat)
  rw [hpre]
  refine ⟨k, by rw [hindex], hpassed, ?_, fits16_agcLoop ..⟩
  rintro y rfl
  rcases hstop with ⟨hfits, hval⟩ | ⟨hmiss, hzero, hval⟩
  · exact .inl ⟨hfits, hval⟩
  · exact .inr ⟨hmiss, hzero, hval.trans (sat16_of_not_fits hmiss)⟩

/-! ### The correlation (41 R508 to R510) -/

theorem corrWindow_pos {c : Config} (h : c.OscillatorOk) : 0 < c.corrWindow := by
  obtain ⟨-, -, -, -, -, -, hpos, -⟩ := h
  exact hpos

theorem corrWindow_le {c : Config} (h : c.OscillatorOk) : c.corrWindow ≤ 255 := by
  obtain ⟨-, -, -, -, -, -, -, hle⟩ := h
  exact hle

theorem cyclesPerBit_pos {c : Config} (h : c.OscillatorOk) : 0 < c.cyclesPerBit := by
  obtain ⟨-, -, -, -, hpos, -⟩ := h
  exact hpos

theorem agcInitIndex_lt {c : Config} (h : c.AgcOk) : c.agcInitIndex < c.gainLen := by
  obtain ⟨-, -, -, -, hlt, -⟩ := h
  exact hlt

/-- The registers of the correlation after one sample, on the references of the new PHASE (41 R508, R510). -/
theorem track_correlation (c : Config) (x : Int) (p : Pll) :
    (track c x p).1.phcos =
      slideSum p.phcos p.corrC p.corrIdx.toNat (cosRef c (track c x p).1 * (agcPrescale c x p).1) ∧
    (track c x p).1.phsin =
      slideSum p.phsin p.corrS p.corrIdx.toNat (sinRef c (track c x p).1 * (agcPrescale c x p).1) ∧
    (track c x p).1.corrC =
      p.corrC.set p.corrIdx.toNat (BitVec.ofInt 32 (cosRef c (track c x p).1 * (agcPrescale c x p).1)) ∧
    (track c x p).1.corrS =
      p.corrS.set p.corrIdx.toNat (BitVec.ofInt 32 (sinRef c (track c x p).1 * (agcPrescale c x p).1)) ∧
    (track c x p).1.corrIdx = BitVec.ofNat 8 ((p.corrIdx.toNat + 1) % c.corrWindow) := by
  obtain ⟨_, _, _, _, _, htrack⟩ := track_pll c x p
  obtain ⟨_, hcorr⟩ := trackCorrelated_eq c x p
  rw [htrack, hcorr]
  exact ⟨rfl, rfl, rfl, rfl, rfl⟩

/-- CORR_IDX fits its register (41 R510). -/
theorem track_corrIdx_toNat {c : Config} (h : c.OscillatorOk) (x : Int) (p : Pll) :
    (track c x p).1.corrIdx.toNat = (p.corrIdx.toNat + 1) % c.corrWindow := by
  have hle := corrWindow_le h
  have hlt := Nat.mod_lt (p.corrIdx.toNat + 1) (corrWindow_pos h)
  obtain ⟨-, -, -, -, hidx⟩ := track_correlation c x p
  rw [hidx, toNat_ofNat_of_lt (by omega)]

/-- The products of a 16-bit sample (41 R509). -/
theorem natAbs_products_le (c : Config) (x : BitVec 16) (p : Pll) :
    (cosRef c (track c x.toInt p).1 * (agcPrescale c x.toInt p).1).natAbs ≤ 2 ^ 30 ∧
    (sinRef c (track c x.toInt p).1 * (agcPrescale c x.toInt p).1).natAbs ≤ 2 ^ 30 := by
  have hxs := fits16_agcPrescale c p (fits16_toInt x)
  exact ⟨natAbs_mul_le_of_fits16 (fits16_sine c _) hxs, natAbs_mul_le_of_fits16 (fits16_sine c _) hxs⟩

/-- A delay line with one exact product written, entry by entry. -/
theorem getD_set_toInt {dl : List (BitVec 32)} {k : Nat} {v : Int} (hk : k < dl.length)
    (hv : (BitVec.ofInt 32 v).toInt = v) (i : Nat) :
    ((dl.set k (BitVec.ofInt 32 v)).getD i 0).toInt = if i = k then v else (dl.getD i 0).toInt := by
  rw [getD_set i _ hk]
  split
  · exact hv
  · rfl

/-- Settles O16: each sum is the sliding sum of its line, on which one exact product enters. -/
theorem trackCorrelatesExactly : Obligations.TrackCorrelatesExactly := by
  rintro c x p _ _ _ _ _ _ ⟨hosc, -⟩ hp rfl rfl rfl rfl rfl rfl
  obtain ⟨hphcos, hphsin, hcorrC, hcorrS, -⟩ := track_correlation c x.toInt p
  obtain ⟨hcos, hsin⟩ := natAbs_products_le c x p
  have hW := corrWindow_le hosc
  obtain ⟨hfitC, -, hsumC, -⟩ := slideSum_exact hW hp.corrC_length hp.corrIdx_lt hp.corrC_bound hp.phcos_sum hcos
  obtain ⟨hfitS, -, hsumS, -⟩ := slideSum_exact hW hp.corrS_length hp.corrIdx_lt hp.corrS_bound hp.phsin_sum hsin
  refine ⟨?_, ?_, fun i _ => ?_, fun i _ => ?_, track_corrIdx_toNat hosc x.toInt p⟩
  · rw [hphcos, hsumC, evicted, List.getD_eq_getElem?_getD]
    rfl
  · rw [hphsin, hsumS, evicted, List.getD_eq_getElem?_getD]
    rfl
  · rw [hcorrC]
    exact getD_set_toInt (hp.corrIdx_lt.trans_eq hp.corrC_length.symm) hfitC i
  · rw [hcorrS]
    exact getD_set_toInt (hp.corrIdx_lt.trans_eq hp.corrS_length.symm) hfitS i

/-! ### The invariant (10 R103, 41 R516) -/

/-- The gain index stays in its table (41 R504, R514). -/
theorem track_gainIndex_lt {c : Config} (h : c.AgcOk) (x : Int) {p : Pll} (hp : p.gainIndex.toNat < c.gainLen) :
    (track c x p).1.gainIndex.toNat < c.gainLen := by
  obtain ⟨g, hle, hpre⟩ := agcPrescale_pll c x p
  obtain ⟨q, htrack, hgain, -, -⟩ := track_feedback c x p
  have hq : q.gainIndex.toNat < c.gainLen := by
    rw [hgain, hpre]
    exact hle.trans_lt hp
  rw [htrack]
  by_cases hrun : c.agcEnable = true ∧ q.agcHold = false
  · rw [agcFeedback_gainIndex h hrun.1 hrun.2, nextGainIndex]
    split <;> omega
  · rw [agcFeedback, if_neg hrun]
    exact hq

/-- CYCLE stays below CYCLES_PER_BIT (41 R506). -/
theorem track_cycle_lt {c : Config} (h : c.OscillatorOk) (x : Int) {p : Pll}
    (hp : p.cycle.toNat < c.cyclesPerBit) : (track c x p).1.cycle.toNat < c.cyclesPerBit := by
  rw [track_cycle_toNat h]
  split
  · exact nextCycle_lt (cyclesPerBit_pos h) p
  · exact hp

/-- The loop filter keeps its bounds, held or running (41 R512, R513). -/
theorem track_filter_bounds {c : Config} (hosc : c.OscillatorOk) (hloop : c.LoopOk) {p : Pll} (hp : PllInv c p)
    (x : BitVec 16) :
    (track c x.toInt p).1.intPhase.toInt.natAbs ≤ c.intLimit ∧
    (track c x.toInt p).1.proPhase.toInt.natAbs < 2 ^ 53 ∧
    (track c x.toInt p).1.eta.toInt =
      (track c x.toInt p).1.proPhase.toInt + (track c x.toInt p).1.intPhase.toInt := by
  cases hhold : p.phaseHold with
  | true =>
    obtain ⟨hpro, hint, heta⟩ := track_filter_of_hold c x.toInt hhold
    rw [hpro, hint, heta]
    exact ⟨hp.intPhase_bound, hp.proPhase_bound, hp.eta_sum⟩
  | false =>
    obtain ⟨hpro, hint, heta⟩ := track_filter_of_run hosc hloop hp x hhold
    have herr : (track c x.toInt p).1.phaseErr.toInt.natAbs ≤ 255 * 2 ^ 30 :=
      (natAbs_track_phaseErr_le hosc hp x).trans (Nat.mul_le_mul_right _ (corrWindow_le hosc))
    refine ⟨?_, ?_, heta⟩
    · rw [hint, clamp_eq_max_min]
      omega
    · rw [hpro]
      exact natAbs_nextProPhase_lt c herr

/-- One sample keeps the ranges and sums (41 R516). -/
theorem track_keeps_pllInv {c : Config} (h : c.RangesOk) {p : Pll} (hp : PllInv c p) (x : BitVec 16) :
    PllInv c (track c x.toInt p).1 := by
  obtain ⟨hosc, hagc, hloop, -⟩ := h
  obtain ⟨hphcos, hphsin, hcorrC, hcorrS, -⟩ := track_correlation c x.toInt p
  obtain ⟨hcos, hsin⟩ := natAbs_products_le c x p
  have hW := corrWindow_le hosc
  obtain ⟨-, hmemC, -, hsumC, hboundC⟩ :=
    slideSum_exact hW hp.corrC_length hp.corrIdx_lt hp.corrC_bound hp.phcos_sum hcos
  obtain ⟨-, hmemS, -, hsumS, hboundS⟩ :=
    slideSum_exact hW hp.corrS_length hp.corrIdx_lt hp.corrS_bound hp.phsin_sum hsin
  have hphase : (track c x.toInt p).1.phase.toNat < c.phaseMod := by
    rw [track_phase_toNat hosc]
    exact nextPhase_lt c p (phaseMod_bounds hosc).1
  have hcycle := track_cycle_lt hosc x.toInt hp.cycle_lt
  obtain ⟨hint, hpro, heta⟩ := track_filter_bounds hosc hloop hp x
  rw [← hphcos] at hsumC hboundC
  rw [← hphsin] at hsumS hboundS
  rw [← hcorrC] at hmemC hsumC
  rw [← hcorrS] at hmemS hsumS
  exact {
    phase_lt := hphase
    cycle_lt := hcycle
    bitPhase_lt := bitPhase_lt hosc hphase hcycle
    corrIdx_lt := by
      rw [track_corrIdx_toNat hosc]
      exact Nat.mod_lt _ (corrWindow_pos hosc)
    gainIndex_lt := track_gainIndex_lt hagc x.toInt hp.gainIndex_lt
    corrC_length := by rw [hcorrC, List.length_set, hp.corrC_length]
    corrS_length := by rw [hcorrS, List.length_set, hp.corrS_length]
    corrC_bound := hmemC
    corrS_bound := hmemS
    phcos_sum := hsumC
    phsin_sum := hsumS
    phcos_bound := hboundC
    phsin_bound := hboundS
    phaseErr_eq := track_phaseErr_toInt hosc hp x
    intPhase_bound := hint
    proPhase_bound := hpro
    eta_sum := heta }

/-- The sum of a line of zeros. -/
theorem lineSum_replicate_zero (n : Nat) : lineSum (List.replicate n 0) = 0 := by
  simp [lineSum]

/-- ResetToBitSync establishes the ranges and sums (43 R720). -/
theorem pllToBitSync_inv {c : Config} (h : c.RangesOk) : PllInv c (pllToBitSync c) := by
  obtain ⟨hosc, hagc, -⟩ := h
  have hgain := toNat_gainIndex_pllToBitSync hagc
  have hphase : (pllToBitSync c).phase.toNat < c.phaseMod := (phaseMod_bounds hosc).1
  have hcycle : (pllToBitSync c).cycle.toNat < c.cyclesPerBit := cyclesPerBit_pos hosc
  have hline : ∀ v ∈ List.replicate c.corrWindow (0 : BitVec 32), v.toInt.natAbs ≤ 2 ^ 30 := by
    intro v hv
    rw [List.eq_of_mem_replicate hv]
    decide
  exact {
    phase_lt := hphase
    cycle_lt := hcycle
    bitPhase_lt := bitPhase_lt hosc hphase hcycle
    corrIdx_lt := corrWindow_pos hosc
    gainIndex_lt := hgain.trans_lt (agcInitIndex_lt hagc)
    corrC_length := List.length_replicate
    corrS_length := List.length_replicate
    corrC_bound := hline
    corrS_bound := hline
    phcos_sum := (lineSum_replicate_zero _).symm
    phsin_sum := (lineSum_replicate_zero _).symm
    phcos_bound := Nat.zero_le _
    phsin_bound := Nat.zero_le _
    phaseErr_eq := rfl
    intPhase_bound := Nat.zero_le _
    proPhase_bound := Nat.two_pow_pos 53
    eta_sum := rfl }

/-- The receive step's writes to CYCLE and the holds keep the ranges and sums. -/
theorem ClockOnly.keeps_pllInv {c : Config} (h : c.OscillatorOk) {p q : Pll} (hclock : ClockOnly p q)
    (hp : PllInv c p) : PllInv c q := by
  obtain ⟨heq, hcycle⟩ := hclock
  have hlt : q.cycle.toNat < c.cyclesPerBit := by
    rcases hcycle with hsame | hzero
    · rw [hsame]
      exact hp.cycle_lt
    · rw [hzero]
      exact cyclesPerBit_pos h
  rw [heq] at hlt ⊢
  exact { hp with cycle_lt := hlt, bitPhase_lt := bitPhase_lt h hp.phase_lt hlt }

/-- The receive chain of one SAMPLE keeps the ranges and sums: Track does, and the receive step resets the registers or
writes CYCLE and the holds. -/
theorem sampleChain_keeps_pllInv {s : State} (h : s.cfg.RangesOk) (hp : PllInv s.cfg s.pll) (seed : BitVec 11)
    (x : BitVec 16) : PllInv s.cfg (sampleChain seed x s).pll := by
  have htrack := track_keeps_pllInv h hp x
  rcases (rxStep_effect (track s.cfg x.toInt s.pll).2 seed (sampleSquare (sampleTrack x s))).pll with hreset | hclock
  · rw [sampleChain]
    exact hreset ▸ pllToBitSync_inv h
  · exact hclock.keeps_pllInv h.1 htrack

/-- Every command keeps the ranges and sums. -/
theorem exec_keeps_pllInv {i : Instr} {s t : State} (h : s.cfg.RangesOk) (hp : PllInv s.cfg s.pll)
    (hexec : exec i s = .next t) : PllInv t.cfg t.pll := by
  rw [exec_cfg hexec]
  rcases exec_receive_path hexec with ⟨seed, x, rfl⟩ | ⟨-, ⟨-, hpll, -⟩ | ⟨-, hpll, -⟩ | ⟨hpll, -⟩⟩
  · cases hexec
    exact sampleChain_keeps_pllInv h hp seed x
  · exact hpll ▸ pllToBitSync_inv h
  · exact hpll ▸ hp
  · exact hpll ▸ hp

/-- Settles O11: an idle step and a rejected word leave the registers alone, and every command keeps the invariant. -/
theorem everyStepKeepsThePllInvariant : Obligations.EveryStepKeepsThePllInvariant := by
  intro s t h hp hstep
  rcases step_cases hstep with ⟨-, rfl⟩ | ⟨w, rest, e, -, -, rfl⟩ | ⟨w, rest, i, -, -, hexec⟩
  · exact hp
  · exact hp
  · exact exec_keeps_pllInv (s := { s with cmdIn := rest }) h hp hexec

end Sys2Proof.Machine
end

section
/-! A silent line (42 R603): a zero sample writes a zero into the slot of each delay line that is the oldest, so after W
of them both lines are zero. -/

namespace Sys2Proof.Machine

/-! ### The zeros in the delay lines -/

/-- How many samples are taken before slot i of a line of W slots is the next one written, with CORR_IDX = k (41
R510). -/
def samplesUntil (W k i : Nat) : Nat := if k ≤ i then i - k else i + W - k

/-- The slots that the last n samples wrote hold zeros in both delay lines. -/
def SilentFor (W n : Nat) (p : Pll) : Prop :=
  ∀ i < W, W ≤ samplesUntil W p.corrIdx.toNat i + n → p.corrC.getD i 0 = 0 ∧ p.corrS.getD i 0 = 0

theorem samplesUntil_lt {W k i : Nat} (hk : k < W) (hi : i < W) : samplesUntil W k i < W := by
  unfold samplesUntil
  split <;> omega

/-- One sample brings every slot but the one it writes one sample closer. -/
theorem samplesUntil_next {W k i : Nat} (hk : k < W) (hi : i < W) (hne : i ≠ k) :
    samplesUntil W ((k + 1) % W) i + 1 = samplesUntil W k i := by
  unfold samplesUntil
  rcases (show k + 1 ≤ W from hk).lt_or_eq with hlt | heq
  · rw [Nat.mod_eq_of_lt hlt]
    split_ifs <;> omega
  · rw [heq, Nat.mod_self]
    split_ifs <;> omega

theorem silentFor_zero {W : Nat} {p : Pll} (hk : p.corrIdx.toNat < W) : SilentFor W 0 p := by
  intro i hi hold
  have := samplesUntil_lt hk hi
  omega

/-- The scaled sample of a zero sample is zero: zero fits at every gain (41 R502). -/
theorem agcPrescale_zero (c : Config) (p : Pll) : (agcPrescale c 0 p).1 = 0 := by
  have hscale (g : Nat) : agcScale c 0 g = 0 := by simp [agcScale, asr]
  have hfits : Fits16 0 := by decide
  unfold agcPrescale
  split
  · simp only [agcLoop, hscale, if_pos hfits]
  · rfl

theorem track_zero_keeps_pllInv {c : Config} (h : c.RangesOk) {p : Pll} (hp : PllInv c p) :
    PllInv c (track c 0 p).1 := track_keeps_pllInv h hp 0#16

/-- One zero sample writes a zero over the oldest slot of each line. -/
theorem track_zero_silent {c : Config} (h : c.OscillatorOk) {p : Pll} (hp : PllInv c p) {n : Nat}
    (hs : SilentFor c.corrWindow n p) : SilentFor c.corrWindow (n + 1) (track c 0 p).1 := by
  obtain ⟨-, -, hcorrC, hcorrS, -⟩ := track_correlation c 0 p
  rw [agcPrescale_zero, mul_zero] at hcorrC hcorrS
  intro i hi hold
  rw [track_corrIdx_toNat h] at hold
  rw [hcorrC, hcorrS, getD_set i _ (hp.corrIdx_lt.trans_eq hp.corrC_length.symm),
    getD_set i _ (hp.corrIdx_lt.trans_eq hp.corrS_length.symm)]
  split
  case isTrue => exact ⟨rfl, rfl⟩
  case isFalse hne =>
    have := samplesUntil_next hp.corrIdx_lt hi hne
    exact hs i hi (by omega)

/-- A line whose entries are all zero has the sum 0. -/
theorem lineSum_eq_zero {dl : List (BitVec 32)} (h : ∀ i < dl.length, dl.getD i 0 = 0) : lineSum dl = 0 := by
  have hzeros : dl = List.replicate dl.length 0 := by
    refine List.eq_replicate_iff.mpr ⟨rfl, fun v hv => ?_⟩
    obtain ⟨i, hi, rfl⟩ := List.mem_iff_getElem.mp hv
    rw [← List.getD_eq_getElem dl 0 hi]
    exact h i hi
  rw [hzeros]
  exact lineSum_replicate_zero _

/-- After W silent samples both sums are zero (42 R603). -/
theorem sums_zero_of_silent {c : Config} {p : Pll} (hp : PllInv c p) {n : Nat} (hn : c.corrWindow ≤ n)
    (hs : SilentFor c.corrWindow n p) : p.phcos = 0 ∧ p.phsin = 0 := by
  have hline (i : Nat) (hi : i < c.corrWindow) : p.corrC.getD i 0 = 0 ∧ p.corrS.getD i 0 = 0 := hs i hi (by omega)
  constructor
  · apply BitVec.eq_of_toInt_eq
    rw [hp.phcos_sum]
    exact lineSum_eq_zero fun i hi => (hline i (hp.corrC_length ▸ hi)).1
  · apply BitVec.eq_of_toInt_eq
    rw [hp.phsin_sum]
    exact lineSum_eq_zero fun i hi => (hline i (hp.corrS_length ▸ hi)).2

/-! ### A run of zero samples through Track -/

theorem feedTrack_zeros_silent {c : Config} (h : c.RangesOk) {p : Pll} (hp : PllInv c p) (n : Nat) :
    PllInv c (feedTrack c (List.replicate n 0) p) ∧
    SilentFor c.corrWindow n (feedTrack c (List.replicate n 0) p) := by
  induction n with
  | zero => exact ⟨hp, silentFor_zero hp.corrIdx_lt⟩
  | succ n ih =>
    obtain ⟨hinv, hsilent⟩ := ih
    rw [List.replicate_succ', feedTrack_append]
    exact ⟨track_zero_keeps_pllInv h hinv, track_zero_silent h.1 hinv hsilent⟩

/-! ### A run of SAMPLE 0 commands -/

/-- The receive step keeps the zeros: it leaves the lines alone or clears them (43 R720). -/
theorem ReceiveEffect.silentFor {s t : State} (h : ReceiveEffect s t) {n : Nat}
    (hs : SilentFor s.cfg.corrWindow n s.pll) : SilentFor s.cfg.corrWindow n t.pll := by
  rcases h.pll with hreset | ⟨hclock, -⟩
  · intro i hi _
    rw [hreset]
    simp [pllToBitSync, hi]
  · rw [hclock]
    exact hs

/-- One SAMPLE 0 keeps the invariant and writes one more zero, and the PHCOS it slices is Track's. -/
theorem exec_sample_zero_silent {s t : State} (h : s.cfg.RangesOk) (hp : PllInv s.cfg s.pll) {n : Nat}
    (hs : SilentFor s.cfg.corrWindow n s.pll) {seed : BitVec 11} (hexec : exec (.sample seed 0) s = .next t) :
    PllInv s.cfg t.pll ∧ SilentFor s.cfg.corrWindow (n + 1) t.pll ∧
    t.sq = square s.cfg (track s.cfg 0 s.pll).1.phcos.toInt s.sq := by
  cases hexec
  refine ⟨sampleChain_keeps_pllInv h hp seed 0, ?_, (sampleChain_frame seed 0 s).sq⟩
  have hsilent := track_zero_silent h.1 hp hs
  exact (rxStep_effect (track s.cfg 0 s.pll).2 seed (sampleSquare (sampleTrack 0 s))).silentFor hsilent

/-- A run of SAMPLE 0 commands writes one zero for each. -/
theorem execAll_samples_zero_silent (seeds : List (BitVec 11)) {s : State} (h : s.cfg.RangesOk)
    (hp : PllInv s.cfg s.pll) {n : Nat} (hs : SilentFor s.cfg.corrWindow n s.pll) :
    ∃ t, execAll (seeds.map fun seed => Instr.sample seed 0) s = .next t ∧ t.cfg = s.cfg ∧
      PllInv s.cfg t.pll ∧ SilentFor s.cfg.corrWindow (n + seeds.length) t.pll := by
  induction seeds generalizing s n with
  | nil => exact ⟨s, rfl, rfl, hp, hs⟩
  | cons seed seeds ih =>
    obtain ⟨u, hu⟩ := exec_next (.sample seed 0) s
    have hcfg := exec_cfg hu
    obtain ⟨hinv, hsilent, -⟩ := exec_sample_zero_silent h hp hs hu
    rw [← hcfg] at h hinv hsilent
    obtain ⟨t, ht, htcfg, htinv, htsilent⟩ := ih h hinv hsilent
    rw [hcfg] at htcfg htinv htsilent
    refine ⟨t, (execAll_cons _ hu).trans ht, htcfg, htinv, ?_⟩
    rwa [List.length_cons, Nat.add_comm seeds.length 1, ← Nat.add_assoc]

/-- A zero is past no threshold, so it flips no DET_BIT (42 R601). -/
theorem square_zero_detBit (c : Config) (q : Squarer) : (square c 0 q).detBit = q.detBit := by
  have hbeyond : beyond c 0 q.detBit = false := by
    rw [beyond_eq_false_iff]
    split <;> omega
  rw [square_of_not_beyond hbeyond]

/-- Settles O19: W zeros empty both lines, alone through Track or with the whole receive chain, and PHCOS = 0 flips
nothing. -/
theorem silenceEmptiesTheCorrelationWindow : Obligations.SilenceEmptiesTheCorrelationWindow := by
  refine ⟨fun c p h hp => ?_, fun s seeds h hp hlen => ?_⟩
  · obtain ⟨hinv, hsilent⟩ := feedTrack_zeros_silent h hp c.corrWindow
    exact sums_zero_of_silent hinv le_rfl hsilent
  · obtain ⟨t, ht, hcfg, hinv, hsilent⟩ := execAll_samples_zero_silent seeds h hp (silentFor_zero hp.corrIdx_lt)
    obtain ⟨hphcos, hphsin⟩ := sums_zero_of_silent hinv (by omega) hsilent
    refine ⟨t, ht, hphcos, hphsin, fun seed => ?_⟩
    rw [← hcfg] at h hinv hsilent hlen
    obtain ⟨u, hu⟩ := exec_next (.sample seed 0) t
    obtain ⟨huinv, husilent, husq⟩ := exec_sample_zero_silent h hinv hsilent hu
    obtain ⟨hucos, husin⟩ := sums_zero_of_silent huinv (by omega) husilent
    have htrack := track_zero_silent h.1 hinv hsilent
    obtain ⟨htcos, -⟩ := sums_zero_of_silent (track_zero_keeps_pllInv h hinv) (by omega) htrack
    refine ⟨u, hu, hucos, husin, ?_⟩
    rw [husq, htcos]
    exact square_zero_detBit _ _

end Sys2Proof.Machine
end

section
/-! TransmitFramer (46): TX_ENCODE's registers, and a whole transmission bit by bit. -/

namespace Sys2Proof.Machine

/-! ### The frame that TX_ENCODE loads -/

/-- The frame of len payload bytes as a bit stream (46 R1000, R1011). -/
def txStream (s : State) (len : Nat) : List Bool := frameStream s.cfg s.crc.crcTab (txPayload s.tx len)

/-- The length of the frame (46 R1002). -/
theorem length_txStream (s : State) {len : Nat} (h : len ≤ 32) : (txStream s len).length = 102 + 11 * len := by
  rw [txStream, length_frameStream, length_txPayload _ _ h]

/-- A loaded frame is served as the stream the buffer holds, and zeros past TXDATA (46 R1012). -/
theorem servedBit_loadFrame {f : FrameBuf} {bits : List Bool} (h : HoldsStream f bits) (hlen : bits.length ≤ 464)
    (t : Tx) (i : Nat) : servedBit (loadFrame f t) i = bits.getD i false := by
  rcases Nat.lt_or_ge (i / 16) 29 with hlt | hge
  · rw [servedBit_of_lt hlt]
    obtain ⟨-, hbits⟩ := h
    have hword : (loadFrame f t).txdata[i / 16]?.getD 0 = f.words[i / 16] := by
      rw [loadFrame, Vector.getElem?_eq_getElem hlt, Option.getD_some]
    rw [hword, hbits i hlt]
  · rw [servedBit_of_ge hge, List.getD_eq_default _ _ (by omega)]

/-- After TX_ENCODE of a legal length the served bits are those of the frame. -/
theorem servedBit_encodeFrame (s : State) {len : Nat} (h : len ≤ 32) (i : Nat) :
    servedBit (encodeFrame len s).tx i = (txStream s len).getD i false :=
  servedBit_loadFrame (buildFrame_holds s.cfg s.crc.crcTab _) (by rw [← txStream, length_txStream s h]; omega) s.tx i

/-- TX_MSG_LEN after TX_ENCODE of a legal length (46 R1002, R1011). -/
theorem encodeFrame_txMsgLen (s : State) {len : Nat} (h : len ≤ 32) :
    (encodeFrame len s).tx.txMsgLen = BitVec.ofNat 16 (102 + 11 * len) := by
  obtain ⟨hpos, -⟩ := buildFrame_holds s.cfg s.crc.crcTab (txPayload s.tx len)
  rw [← txStream, length_txStream s h] at hpos
  exact congrArg (BitVec.ofNat 16) hpos

theorem encodeFrame_txMsgLen_toNat (s : State) {len : Nat} (h : len ≤ 32) :
    (encodeFrame len s).tx.txMsgLen.toNat = 102 + 11 * len := by
  rw [encodeFrame_txMsgLen s h, toNat_ofNat_of_lt (by omega)]

/-- TX_ENCODE past the longest payload is rejected with ERR_LEN (46 R1011). -/
theorem exec_txEncode_of_gt (s : State) (len : BitVec 8) (h : 32 < len.toNat) :
    exec (.txEncode len) s = .next (reject .len s) := by
  simp only [exec, execTxEncode, unsignedOperand, maxTxMsgLen, gt_iff_lt, if_pos h]

/-- A number that fits 16 bits, zero-extended to 32. -/
theorem zext_ofNat {n : Nat} (h : n < 2 ^ 16) : zext (BitVec.ofNat 16 n) = BitVec.ofNat 32 n := by
  apply BitVec.eq_of_toNat_eq
  rw [zext, BitVec.toNat_setWidth, toNat_ofNat_of_lt h, BitVec.toNat_ofNat]

/-- Settles O42: the length in range and past it. -/
theorem txEncodeSetsLengthAndCursor : Obligations.TxEncodeSetsLengthAndCursor := by
  refine ⟨fun s len h => ⟨_, exec_txEncode_of_le s len h, ?_, ?_, ?_⟩, fun s len h => exec_txEncode_of_gt s len h⟩
  · rw [respond_tx, ← encodeFrame_txMsgLen s h]
    rfl
  · rw [respond_responses, encodeFrame_responses, encodeFrame_txMsgLen s h, zext_ofNat (by omega)]
  · exact ⟨rfl, rfl, rfl, rfl, rfl, rfl, rfl, rfl, rfl⟩

/-! ### A transmission -/

/-- After TX_ENCODE and n bits TXDATA and TX_MSG_LEN are those of the frame, and the cursor is n, saturated. -/
theorem execAll_transmission {s : State} {len : BitVec 8} (h : len.toNat ≤ 32) (n : Nat) :
    ∃ t, execAll (.txEncode len :: List.replicate n .txNextBit) s = .next t ∧
      t.tx.txdata = (encodeFrame len.toNat s).tx.txdata ∧ t.tx.txMsgLen = (encodeFrame len.toNat s).tx.txMsgLen ∧
      t.tx.txBitNum.toNat = min n 65535 := by
  induction n with
  | zero => exact ⟨_, execAll_cons [] (exec_txEncode_of_le s len h), rfl, rfl, rfl⟩
  | succ n ih =>
    obtain ⟨t, ht, hdata, hlen, hnum⟩ := ih
    rw [List.replicate_succ', ← List.cons_append]
    refine ⟨_, (execAll_concat _ _ ht).trans (exec_txNextBit t), hdata, hlen, ?_⟩
    rw [respond_tx]
    exact (toNat_satInc16 _).trans (by omega)

/-- The bit served depends on TXDATA only (46 R1012). -/
theorem servedBit_congr {t u : Tx} (h : t.txdata = u.txdata) (i : Nat) : servedBit t i = servedBit u i := by
  unfold servedBit
  rw [h]

/-- Settles O45: the last TX_NEXT_BIT serves at the cursor k; a saturated cursor is past the frame as k is. -/
theorem transmissionServesTheFrame : Obligations.TransmissionServesTheFrame := by
  rintro s len k _ _ h rfl rfl
  obtain ⟨t, ht, hdata, hlen, hnum⟩ := execAll_transmission (s := s) h k
  have hbit : (serveBit t.tx).txBit = (txStream s len.toNat).getD k false := by
    show servedBit t.tx t.tx.txBitNum.toNat = _
    rw [servedBit_congr hdata, servedBit_encodeFrame s h, hnum]
    have hlength := length_txStream s h
    rcases Nat.le_or_ge k 65535 with hle | hge
    · rw [Nat.min_eq_left hle]
    · rw [List.getD_eq_default _ _ (by omega), List.getD_eq_default _ _ (by omega)]
  have hdone : txDone (serveBit t.tx) = decide (102 + 11 * len.toNat < k + 1) := by
    rw [txDone_serveBit, hlen, encodeFrame_txMsgLen_toNat s h, hnum, decide_eq_decide]
    omega
  rw [List.replicate_succ', ← List.cons_append]
  refine ⟨_, (execAll_concat _ _ ht).trans (exec_txNextBit t), ?_, hbit, rfl, hdone, ?_⟩
  · rw [respond_tx]
    exact (toNat_satInc16 _).trans (by omega)
  · rw [respond_responses, List.getLast?_concat, nextBitResponse_eq, hbit, hdone]
    rfl

end Sys2Proof.Machine
end

section
/-! The invariants of the receiver, the slicer, the frame and the CRC table (42 R603, 43 R710 to R720, 46 R1002, 10
R109): each part of a command keeps them, and they hold after reset. -/

namespace Sys2Proof.Machine

/-! ### The receiver, one part of the receive step after the other -/

/-- In FIND_BITSYNC few relations say anything (43 R720). -/
theorem rxInv_of_bitsync {t : State} (hm : t.rx.mode = .findBitsync) (hbyte : t.rx.byteCount.toNat ≤ maxRxMsgLen)
    (hbit : t.rx.bitCount.toNat ≤ codewordLen) (hcounter : t.rx.modeCounter = 0) (hhold : t.rx.holdOff = 0)
    (hpol : t.rx.polarity = false) (hagc : t.pll.agcHold = false)
    (hdue : ¬ (t.pll.phaseHold = true ∧ t.rx.bitDue = true)) (hlen : t.validator.rxOutLen.toNat ≤ 34)
    (hres : t.validator.rxResult.toNat ≤ 2) : RxInv t := by
  have hdata : ¬ InData t.rx.mode := by rw [hm]; decide
  exact {
    byteCount_le := hbyte
    bitCount_le := hbit
    bitCount_pos := fun h => absurd h hdata
    detData_lt := fun h => absurd h hdata
    counter_bitsync := fun _ => hcounter
    counter_wordsync := fun h => by rw [hcounter]; exact Nat.zero_le _
    counter_data := fun h => absurd h hdata
    holdOff_le := by rw [hhold]; exact Nat.zero_le _
    holdOff_zero := fun _ => hhold
    findData_lt := fun h => absurd (.inl h) hdata
    findEop_ge := fun h => absurd (.inr h) hdata
    polarity_sync := fun _ => hpol
    agcHold_iff := by simp [hagc, hm]
    hold_not_due := hdue
    hold_or_due := fun h => absurd hm h
    rxOutLen_le := hlen
    rxResult_le := hres }

/-- In FIND_DATA and FIND_EOP at the start of a codeword (43 R715, R717). -/
theorem rxInv_of_codeword {t : State} (hm : InData t.rx.mode) (hbyte : t.rx.byteCount.toNat ≤ maxRxMsgLen)
    (hbit : t.rx.bitCount = 11) (hdata : t.rx.detData = 0) (hcounter : t.rx.modeCounter.toNat ≤ t.cfg.findEopTimeout)
    (hhold : t.rx.holdOff = 0) (hfindData : t.rx.mode = .findData → t.rx.byteCount.toNat < findEopAfter)
    (hfindEop : t.rx.mode = .findEop → findEopAfter ≤ t.rx.byteCount.toNat) (hagc : t.pll.agcHold = true)
    (hphase : t.pll.phaseHold = true) (hdue : t.rx.bitDue = false) (hlen : t.validator.rxOutLen.toNat ≤ 34)
    (hres : t.validator.rxResult.toNat ≤ 2) : RxInv t := by
  have hne {m : RxMode} (hnot : ¬ InData m) : t.rx.mode ≠ m := fun h => hnot (h ▸ hm)
  have hbitsync := hne (m := .findBitsync) (by decide)
  have hwordsync := hne (m := .findWordsync) (by decide)
  exact {
    byteCount_le := hbyte
    bitCount_le := by rw [hbit]; exact le_refl 11
    bitCount_pos := fun _ => by rw [hbit]; exact Nat.le_add_left 1 10
    detData_lt := fun _ => by rw [hdata]; exact Nat.two_pow_pos _
    counter_bitsync := fun h => absurd h hbitsync
    counter_wordsync := fun h => absurd h hwordsync
    counter_data := fun _ => hcounter
    holdOff_le := by rw [hhold]; exact Nat.zero_le _
    holdOff_zero := fun _ => hhold
    findData_lt := hfindData
    findEop_ge := hfindEop
    polarity_sync := fun h => absurd h (not_or.mpr ⟨hbitsync, hwordsync⟩)
    agcHold_iff := by simp [hagc, hbitsync]
    hold_not_due := by simp [hdue]
    hold_or_due := fun _ => .inl hphase
    rxOutLen_le := hlen
    rxResult_le := hres }

/-- ResetToBitSync establishes the relations (43 R720). -/
theorem resetToBitSync_rxInv {s : State} (hbyte : s.rx.byteCount.toNat ≤ maxRxMsgLen)
    (hbit : s.rx.bitCount.toNat ≤ codewordLen) (hlen : s.validator.rxOutLen.toNat ≤ 34)
    (hres : s.validator.rxResult.toNat ≤ 2) : RxInv (resetToBitSync s) :=
  rxInv_of_bitsync rfl hbyte hbit rfl rfl rfl rfl (fun h => Bool.false_ne_true h.1) hlen hres

/-- A sampled bit in FIND_BITSYNC (43 R714). -/
theorem sampleBitsync_keeps_rxInv {s : State} (h : RxInv s) (hm : s.rx.mode = .findBitsync)
    (hhold : s.pll.phaseHold = true) (b : Bool) : RxInv (sampleBitsync b s) := by
  have hdata : ¬ InData s.rx.mode := by rw [hm]; decide
  have hdata' : ¬ InData .findWordsync := by decide
  unfold sampleBitsync
  dsimp only
  split
  · exact { h with
      bitCount_pos := fun hd => absurd hd hdata'
      detData_lt := fun hd => absurd hd hdata'
      counter_bitsync := fun _ => rfl
      counter_wordsync := fun _ => Nat.zero_le _
      counter_data := fun hd => absurd hd hdata'
      holdOff_zero := fun _ => h.holdOff_zero (by rw [hm]; decide)
      findData_lt := fun hd => absurd (.inl hd) hdata'
      findEop_ge := fun hd => absurd (.inr hd) hdata'
      polarity_sync := fun _ => h.polarity_sync (.inl hm)
      agcHold_iff := by simp
      hold_or_due := fun _ => .inl hhold }
  · exact { h with detData_lt := fun hd => absurd hd hdata }

/-- A sampled bit in FIND_WORDSYNC (43 R715). -/
theorem sampleWordsync_keeps_rxInv {s : State} (h : RxInv s) (hm : s.rx.mode = .findWordsync)
    (hhold : s.pll.phaseHold = true) (hdue : s.rx.bitDue = false) (b : Bool) : RxInv (sampleWordsync b s) := by
  have hdata : ¬ InData s.rx.mode := by rw [hm]; decide
  unfold sampleWordsync
  dsimp only
  split_ifs with hmatch htime
  · have hzero := h.holdOff_zero (by rw [hm]; decide)
    have hagc := h.agcHold_iff.mpr (by rw [hm]; decide)
    exact rxInv_of_codeword (.inl rfl) (Nat.zero_le _) rfl rfl (Nat.zero_le _) hzero (fun _ => Nat.zero_lt_succ 33)
      (fun hd => RxMode.noConfusion hd) hagc hhold hdue h.rxOutLen_le h.rxResult_le
  · exact resetToBitSync_rxInv h.byteCount_le h.bitCount_le h.rxOutLen_le h.rxResult_le
  · exact { h with
      detData_lt := fun hd => absurd hd hdata
      counter_bitsync := fun hd => RxMode.noConfusion (hm.symm.trans hd)
      counter_wordsync := fun _ => Nat.le_of_not_lt htime
      counter_data := fun hd => absurd hd hdata }

/-- The state in which CodewordDone runs: the last bit of a codeword is shifted in and the codeword counted
(43 R716). -/
def codewordComplete (d : BitVec 16) (s : State) : State :=
  { s with rx := { s.rx with detData := d, bitCount := 0, modeCounter := s.rx.modeCounter + 1 } }

/-- A codeword that is stored leaves this state (43 R717 (d)). -/
theorem codewordDone_stored {s : State} (seed : BitVec 11) (htime : s.rx.modeCounter.toNat ≤ s.cfg.findEopTimeout)
    (hroom : s.rx.byteCount.toNat < 36) (heop : s.rx.detData ≠ eopPattern) :
    codewordDone seed s =
      { s with
        rx := { s.rx with
          rxbuf := s.rx.rxbuf.set s.rx.byteCount.toNat (codewordByte s.rx.detData),
          byteCount := s.rx.byteCount + 1,
          mode := if s.rx.mode = .findData ∧ s.rx.byteCount = 33 then .findEop else s.rx.mode,
          bitCount := 11, detData := 0 },
        stat := if s.rx.mode = .findData ∧ s.cfg.precode (codewordByte s.rx.detData) ≠ codewordBits s.rx.detData
          then s.stat.set 6 (s.stat[6] + 1) else s.stat } :=
  codewordIsStored seed s (codewordByte s.rx.detData) hroom htime heop rfl

/-- The mode after a stored codeword: FIND_EOP from the 34th byte on (43 R719). -/
theorem mode_after_store {m : RxMode} {n : BitVec 8} (hm : InData m) (hdata : m = .findData → n.toNat < findEopAfter)
    (heop : m = .findEop → findEopAfter ≤ n.toNat) (hroom : n.toNat < 36) :
    InData (if m = .findData ∧ n = 33 then .findEop else m) ∧
    ((if m = .findData ∧ n = 33 then .findEop else m) = .findData → (n + 1).toNat < findEopAfter) ∧
    ((if m = .findData ∧ n = 33 then .findEop else m) = .findEop → findEopAfter ≤ (n + 1).toNat) := by
  unfold findEopAfter at *
  rcases hm with rfl | rfl
  · have hlt := hdata rfl
    by_cases hn : n = 33
    · rw [if_pos ⟨rfl, hn⟩, hn]
      exact ⟨.inr rfl, fun h => RxMode.noConfusion h, fun _ => le_refl 34⟩
    · rw [if_neg fun h => hn h.2]
      refine ⟨.inl rfl, fun _ => ?_, fun h => RxMode.noConfusion h⟩
      bv_omega
  · have hle := heop rfl
    rw [if_neg fun h => RxMode.noConfusion h.1]
    refine ⟨.inr rfl, fun h => RxMode.noConfusion h, fun _ => ?_⟩
    bv_omega

/-- A completed codeword keeps the relations: it resets the receiver, starts the hold-off or is stored (43 R717). -/
theorem codewordDone_keeps_rxInv {s : State} (h : RxInv s) (hm : InData s.rx.mode) (hhold : s.pll.phaseHold = true)
    (hdue : s.rx.bitDue = false) (d : BitVec 16) (seed : BitVec 11) :
    RxInv (codewordDone seed (codewordComplete d s)) := by
  have hne : s.rx.mode ≠ .findBitsync ∧ s.rx.mode ≠ .eopHoldOff := by
    rcases hm with hm | hm <;> rw [hm] <;> decide
  have hagc := h.agcHold_iff.mpr hne.1
  rcases Nat.lt_or_ge s.cfg.findEopTimeout (s.rx.modeCounter + 1).toNat with htime | htime
  · rw [codewordDone_of_timeout seed (s := codewordComplete d s) htime]
    exact resetToBitSync_rxInv h.byteCount_le (Nat.zero_le _) h.rxOutLen_le h.rxResult_le
  rcases Nat.lt_or_ge s.rx.byteCount.toNat maxRxMsgLen with hroom | hfull
  case inr =>
    rw [codewordDone_of_too_long seed (s := codewordComplete d s) htime hfull]
    exact resetToBitSync_rxInv h.byteCount_le (Nat.zero_le _) h.rxOutLen_le h.rxResult_le
  by_cases heop : d = eopPattern
  · rw [codewordDone_of_eop seed (s := codewordComplete d s) htime hroom heop]
    have hdata : ¬ InData .eopHoldOff := by decide
    have hseed : (seedOperand seed).toNat ≤ 2047 := by
      have := seed.isLt
      simp only [seedOperand, BitVec.toNat_setWidth]
      omega
    exact { h with
      bitCount_le := Nat.zero_le _
      bitCount_pos := fun hd => absurd hd hdata
      detData_lt := fun hd => absurd hd hdata
      counter_bitsync := fun hd => RxMode.noConfusion hd
      counter_wordsync := fun hd => RxMode.noConfusion hd
      counter_data := fun hd => absurd hd hdata
      holdOff_le := hseed
      holdOff_zero := fun hd => absurd rfl hd
      findData_lt := fun hd => RxMode.noConfusion hd
      findEop_ge := fun hd => RxMode.noConfusion hd
      polarity_sync := fun hd => by rcases hd with hd | hd <;> exact RxMode.noConfusion hd
      agcHold_iff := iff_of_true hagc (fun hd => RxMode.noConfusion hd)
      hold_or_due := fun _ => .inl hhold }
  · rw [codewordDone_stored (s := codewordComplete d s) seed htime hroom heop]
    obtain ⟨hmode, hdata34, heop34⟩ := mode_after_store hm h.findData_lt h.findEop_ge hroom
    have hbyte : (s.rx.byteCount + 1).toNat ≤ 36 := by
      unfold maxRxMsgLen at hroom
      bv_omega
    exact rxInv_of_codeword hmode hbyte rfl rfl htime (h.holdOff_zero hne.2) hdata34 heop34 hagc hhold hdue
      h.rxOutLen_le h.rxResult_le

/-- One bit shifted into a codeword that has room for it (43 R716). -/
theorem toNat_shiftIn_lt {d : BitVec 16} {n : Nat} (h : d.toNat < 2 ^ n) (b : Bool) :
    (shiftIn d b).toNat < 2 ^ (n + 1) := by
  rw [toNat_shiftIn, pow_succ]
  have := Nat.mod_le (2 * d.toNat + b.toNat) (2 ^ 16)
  have := b.toNat_le
  omega

/-- A sampled bit in FIND_DATA or FIND_EOP (43 R716). -/
theorem sampleData_keeps_rxInv {s : State} (h : RxInv s) (hm : InData s.rx.mode) (hhold : s.pll.phaseHold = true)
    (hdue : s.rx.bitDue = false) (b : Bool) (seed : BitVec 11) : RxInv (sampleData b seed s) := by
  have hpos := h.bitCount_pos hm
  have hle := h.bitCount_le
  have hlt := h.detData_lt hm
  have hpred : (s.rx.bitCount - 1).toNat = s.rx.bitCount.toNat - 1 := by bv_omega
  unfold sampleData
  dsimp only
  split
  case isTrue hlast =>
    rw [hlast]
    exact codewordDone_keeps_rxInv h hm hhold hdue _ seed
  case isFalse hmore =>
    have hmore' : (s.rx.bitCount - 1).toNat ≠ 0 := fun h0 => hmore (BitVec.eq_of_toNat_eq h0)
    exact { h with
      bitCount_le := by rw [hpred]; omega
      bitCount_pos := fun _ => Nat.one_le_iff_ne_zero.mpr hmore'
      detData_lt := fun _ => by
        have hshift := toNat_shiftIn_lt hlt (b ^^ s.rx.polarity)
        rwa [show codewordLen - s.rx.bitCount.toNat + 1 = codewordLen - (s.rx.bitCount - 1).toNat by omega] at hshift }

/-- A sampled bit keeps the relations when the sample point has set PHASE_HOLD and cleared BIT_DUE (43 R713). -/
theorem sampleBit_keeps_rxInv {s : State} (h : RxInv s) (hhold : s.pll.phaseHold = true) (hdue : s.rx.bitDue = false)
    (b : Bool) (seed : BitVec 11) : RxInv (sampleBit b seed s) := by
  unfold sampleBit
  split
  case h_1 hm => exact sampleBitsync_keeps_rxInv h hm hhold b
  case h_2 hm => exact sampleWordsync_keeps_rxInv h hm hhold hdue b
  case h_3 hm => exact sampleData_keeps_rxInv h (.inl hm) hhold hdue b seed
  case h_4 hm => exact sampleData_keeps_rxInv h (.inr hm) hhold hdue b seed
  case h_5 => exact h

/-- The sample point (43 R713). -/
theorem samplePoint_keeps_rxInv {s : State} (h : RxInv s) (seed : BitVec 11) : RxInv (samplePoint seed s) := by
  unfold samplePoint
  split
  · refine sampleBit_keeps_rxInv ?_ rfl rfl _ seed
    exact { h with hold_not_due := fun hd => Bool.false_ne_true hd.2, hold_or_due := fun _ => .inl rfl }
  · exact h

/-- The receive step keeps the relations (43 R710 to R720). -/
theorem rxStep_keeps_rxInv {s : State} (h : RxInv s) (w : Bool) (seed : BitVec 11) : RxInv (rxStep w seed s) := by
  by_cases hh : s.rx.mode = .eopHoldOff
  · rw [rxStep_of_holdOff hh]
    split
    case isTrue hpos =>
      have hle := h.holdOff_le
      have hcount : (s.rx.holdOff - 1).toNat ≤ 2047 := by
        have := BitVec.toInt_eq_toNat_cond (s.rx.holdOff - 1)
        bv_omega
      exact { h with holdOff_le := hcount, holdOff_zero := fun hd => absurd hh hd }
    case isFalse =>
      exact rxInv_of_bitsync rfl h.byteCount_le h.bitCount_le rfl rfl rfl rfl (fun hd => Bool.false_ne_true hd.1)
        h.rxOutLen_le h.rxResult_le
  by_cases hb : s.rx.mode = .findBitsync
  · have hagc : s.pll.agcHold = false := by
      have := h.agcHold_iff
      simpa [hb] using this
    cases ht : s.sq.trans with
    | true =>
      rw [rxStep_of_transition hb ht]
      refine samplePoint_keeps_rxInv ?_ seed
      exact rxInv_of_bitsync hb h.byteCount_le h.bitCount_le (h.counter_bitsync hb) (h.holdOff_zero hh)
        (h.polarity_sync (.inl hb)) hagc (fun hd => Bool.false_ne_true hd.1) h.rxOutLen_le h.rxResult_le
    | false =>
      rw [rxStep_of_no_transition hb ht]
      refine samplePoint_keeps_rxInv ?_ seed
      exact { h with
        hold_not_due := fun hd => h.hold_not_due ⟨(Bool.and_eq_true_iff.mp hd.1).2, hd.2⟩
        hold_or_due := fun hd => absurd hb hd }
  · rw [rxStep_of_synced hb hh]
    refine samplePoint_keeps_rxInv ?_ seed
    have hnot := h.hold_not_due
    have hor := h.hold_or_due hb
    exact { h with
      hold_not_due := by cases w <;> simp_all
      hold_or_due := fun _ => by cases w <;> simp_all }

/-! ### The receiver, command by command -/

/-- The receive chain of one SAMPLE: Track and Square leave the registers of the relations alone (41 R500). -/
theorem sampleChain_keeps_rxInv {s : State} (h : RxInv s) (seed : BitVec 11) (x : BitVec 16) :
    RxInv (sampleChain seed x s) := by
  obtain ⟨hagc, hphase⟩ := track_holds s.cfg (sampleOperand x) s.pll
  refine rxStep_keeps_rxInv ?_ _ seed
  exact { h with
    agcHold_iff := by rw [sampleSquare_pll, sampleTrack_pll, hagc]; exact h.agcHold_iff
    hold_not_due := by rw [sampleSquare_pll, sampleTrack_pll, hphase]; exact h.hold_not_due
    hold_or_due := by rw [sampleSquare_pll, sampleTrack_pll, hphase]; exact h.hold_or_due }

/-- What RX_VALIDATE leaves alone keeps every relation but the two on the validator's registers (44 R801). -/
theorem RxInv.of_validateFrame {s t : State} (h : RxInv s) (hframe : ValidateFrame s t)
    (hlen : t.validator.rxOutLen.toNat ≤ 34) (hres : t.validator.rxResult.toNat ≤ 2) : RxInv t := by
  obtain ⟨cfg, pll, sq, rx, validator, tx, crc, stat, err, cmdIn, responses⟩ := t
  obtain ⟨hcfg, hpll, -, hrx, -⟩ := hframe
  simp only at hcfg hpll hrx
  subst hcfg hpll hrx
  exact { h with rxOutLen_le := hlen, rxResult_le := hres }

/-- A payload is at most 34 of the 36 stored bytes (20 R209, 44 R801). -/
theorem validateMessage_validator_le {s : State} (h : RxInv s) :
    (validateMessage s).validator.rxOutLen.toNat ≤ 34 ∧ (validateMessage s).validator.rxResult.toNat ≤ 2 := by
  have hbyte : s.rx.byteCount.toNat ≤ 36 := h.byteCount_le
  unfold validateMessage
  split
  · split
    case h_1 k _ =>
      simp only [clearPending_validator, acceptMessage, countEvent_validator]
      rw [toNat_ofNat_of_lt (by omega)]
      exact ⟨by omega, by decide⟩
    case h_2 => exact ⟨h.rxOutLen_le, le_refl 2⟩
  · exact ⟨h.rxOutLen_le, Nat.zero_le 2⟩

theorem validateMessage_keeps_rxInv {s : State} (h : RxInv s) : RxInv (validateMessage s) := by
  obtain ⟨hlen, hres⟩ := validateMessage_validator_le h
  exact h.of_validateFrame (validateMessage_frame s) hlen hres

/-- Every command keeps the relations. -/
theorem CommandEffect.keeps_rxInv {i : Instr} {s t : State} (heffect : CommandEffect s i t) (h : RxInv s) :
    RxInv t := by
  cases heffect with
  | sampled seed x => exact { sampleChain_keeps_rxInv h seed x with }
  | rxReset => exact { resetToBitSync_rxInv h.byteCount_le h.bitCount_le h.rxOutLen_le h.rxResult_le with }
  | validated => exact { validateMessage_keeps_rxInv h with }
  | _ => exact { h with }

/-- Settles O12: an idle step and a rejected word write no receive register, and every command keeps the relations. -/
theorem everyStepKeepsTheReceiverInvariant : Obligations.EveryStepKeepsTheReceiverInvariant := by
  intro s t _ h hstep
  rcases step_cases hstep with ⟨-, rfl⟩ | ⟨w, rest, e, -, -, rfl⟩ | ⟨w, rest, i, -, -, hexec⟩
  · exact h
  · exact { h with }
  · exact (exec_effect hexec).keeps_rxInv (s := { s with cmdIn := rest }) { h with }

/-! ### The slicer, the frame and the CRC table -/

/-- The slicer counts up to THRESHOLD_T and flips past it (42 R600, R603). -/
theorem square_hystCnt_le (c : Config) (v : Int) (q : Squarer) : (square c v q).hystCnt.toNat ≤ c.thresholdT := by
  unfold square
  split_ifs with hbeyond hpast
  · exact Nat.zero_le _
  · exact Nat.le_of_not_lt hpast
  · exact Nat.zero_le _

/-- A loaded frame has the length of a payload and zeros behind it (46 R1002, R1011). -/
theorem encodeFrame_txInv (s : State) {len : Nat} (h : len ≤ 32) : TxInv (encodeFrame len s).tx := by
  have hlen := encodeFrame_txMsgLen_toNat s h
  refine ⟨.inr ⟨len, h, hlen⟩, fun i hi => ?_⟩
  rw [servedBit_encodeFrame s h, List.getD_eq_default]
  rw [length_txStream s h]
  omega

/-- Every command keeps the slicer's count, the zero fill and the CRC table. -/
theorem CommandEffect.keeps_slicer_frame_crc {i : Instr} {s t : State} (heffect : CommandEffect s i t)
    (hsq : SlicerInv s) (htx : TxInv s.tx) (hcrc : CrcInv s) : SlicerInv t ∧ TxInv t.tx ∧ CrcInv t := by
  cases heffect with
  | sampled seed x =>
    obtain ⟨-, htx', hcrc', hcfg'⟩ := sampleChain_arrays seed x s
    refine ⟨?_, ?_, ?_⟩
    · rw [SlicerInv, respond_sq, respond_cfg, (sampleChain_frame seed x s).sq, hcfg']
      exact square_hystCnt_le ..
    · rwa [respond_tx, htx']
    · rwa [CrcInv, respond_crc, hcrc']
  | validated =>
    have hframe := validateMessage_frame s
    refine ⟨?_, ?_, ?_⟩
    · rwa [SlicerInv, respond_sq, respond_cfg, hframe.sq, hframe.cfg]
    · rwa [respond_tx, hframe.tx]
    · rwa [CrcInv, respond_crc, hframe.crc]
  | encoded len h => exact ⟨hsq, encodeFrame_txInv s h, hcrc⟩
  | _ => exact ⟨hsq, { htx with }, hcrc⟩

/-- Settles O13: an idle step and a rejected word write none of the three units, and every command keeps them. -/
theorem everyStepKeepsTheSlicerFrameAndCrcInvariants :
    Obligations.EveryStepKeepsTheSlicerFrameAndCrcInvariants := by
  intro s t hsq htx hcrc hstep
  rcases step_cases hstep with ⟨-, rfl⟩ | ⟨w, rest, e, -, -, rfl⟩ | ⟨w, rest, i, -, -, hexec⟩
  · exact ⟨hsq, htx, hcrc⟩
  · exact ⟨hsq, htx, hcrc⟩
  · exact (exec_effect hexec).keeps_slicer_frame_crc (s := { s with cmdIn := rest }) hsq htx hcrc

/-! ### Reset (70 R1300) -/

/-- A framer that was never loaded serves zeros (10 R108). -/
theorem txZero_txInv : TxInv txZero := by
  refine ⟨.inl rfl, fun i _ => ?_⟩
  rcases Nat.lt_or_ge (i / 16) 29 with hlt | hge
  · rw [servedBit_of_lt hlt]
    simp [txZero, hlt]
  · exact servedBit_of_ge hge

/-- Settles O10: ResetToBitSync establishes the invariants of the PLL and the receiver, and the other units are zeroed;
the built configuration is well-formed. -/
theorem invariantsHoldAtReset : Obligations.InvariantsHoldAtReset := by
  have hwf := Config.build.wellFormed
  have hrx : RxInv State.reset :=
    resetToBitSync_rxInv (s := { State.reset with rx := rxZero }) (Nat.zero_le _) (Nat.zero_le _) (Nat.zero_le _)
      (Nat.zero_le _)
  exact ⟨hwf, pllToBitSync_inv hwf.1, hrx, Nat.zero_le _, txZero_txInv, rfl⟩

end Sys2Proof.Machine
end

section
/-! The receive message validator (44) and the parity check (45). -/

namespace Sys2Proof.Machine

/-! ### RX_VALIDATE (44 R801) -/

/-- RX_VALIDATE answers RX_RESULT and RX_OUT_LEN as they are after its effect (44 R801). -/
theorem exec_rxValidate (s : State) :
    exec .rxValidate s = .next (respond (validateResponse (validateMessage s)) (validateMessage s)) := rfl

/-- Settles O35: with nothing pending the effect is the clearing of RX_RESULT. -/
theorem validateWithNothingPending : Obligations.ValidateWithNothingPending := by
  intro s h
  have hresponse : validateResponse { s with validator := { s.validator with rxResult := 0 } } =
      s.validator.rxOutLen.setWidth 32 <<< 8 := BitVec.zero_or
  rw [exec_rxValidate, validateMessage_of_none s h, hresponse]
  rfl

/-- The trials strip 0, 1 and 2 bytes, in this order. -/
theorem goodTrial_eq_find_range (s : State) :
    goodTrial s = (List.range 3).find? fun k => trialGood s (s.rx.byteCount.toNat - k) := rfl

/-- The first good trial (44 R801). -/
theorem goodTrial_eq_some {s : State} {k : Nat} (hk : k ≤ 2)
    (hgood : trialGood s (s.rx.byteCount.toNat - k) = true)
    (hbad : ∀ j < k, trialGood s (s.rx.byteCount.toNat - j) = false) : goodTrial s = some k := by
  rw [goodTrial_eq_find_range, List.find?_range_eq_some]
  exact ⟨hgood, List.mem_range.mpr (Nat.lt_succ_of_le hk), fun j hj => by simp [hbad j hj]⟩

/-- No good trial (44 R801). -/
theorem goodTrial_eq_none {s : State} (hbad : ∀ k ≤ 2, trialGood s (s.rx.byteCount.toNat - k) = false) :
    goodTrial s = none := by
  rw [goodTrial_eq_find_range, List.find?_eq_none]
  intro k hk
  rw [hbad k (Nat.le_of_lt_succ (List.mem_range.mp hk))]
  exact Bool.false_ne_true

/-- The answer to an accepted payload of p bytes: RX_RESULT = 1 below RX_OUT_LEN = p (44 R801). -/
theorem acceptResponse_eq {p : Nat} (h : p < 256) :
    zext (1#2) ||| zext (BitVec.ofNat 8 p) <<< 8 = BitVec.ofNat 32 (256 * p + 1) := by
  apply BitVec.eq_of_toNat_eq
  have hlow : (zext (1#2)).toNat = 1 := rfl
  have hhigh : (zext (BitVec.ofNat 8 p) <<< 8).toNat = p <<< 8 := by
    rw [BitVec.toNat_shiftLeft, zext, BitVec.toNat_setWidth, toNat_ofNat_of_lt h, Nat.shiftLeft_eq]
    omega
  rw [BitVec.toNat_or, hlow, hhigh, Nat.or_comm, ← Nat.shiftLeft_add_eq_or_of_lt (by norm_num), Nat.shiftLeft_eq,
    toNat_ofNat_of_lt (by omega)]
  omega

/-- The registers of an accepted message (44 R801). -/
theorem acceptMessage_validator (p : Nat) (s : State) :
    (acceptMessage p s).validator =
      { rxout := copyPayload p s.rx.rxbuf s.validator.rxout, rxOutLen := BitVec.ofNat 8 p, rxValid := true,
        rxResult := 1 } := by
  simp only [acceptMessage, countEvent_validator]

theorem acceptMessage_stat (p : Nat) (s : State) : (acceptMessage p s).stat = s.stat.set 7 (s.stat[7] + 1) := rfl

/-- Settles O36: trial k is the first good one, and p is the payload it leaves. -/
theorem validateAcceptsTheFirstGoodTrial : Obligations.ValidateAcceptsTheFirstGoodTrial := by
  intro s k p hpend hk hbyte hcount hcrc hbad
  have hgood : trialGood s (s.rx.byteCount.toNat - k) = true := by
    rw [show s.rx.byteCount.toNat - k = p + 2 by omega, trialGood_iff s (by omega)]
    exact hcrc
  have hfirst : goodTrial s = some k := by
    refine goodTrial_eq_some hk hgood fun j hj => ?_
    rw [Bool.eq_false_iff, ne_eq, show s.rx.byteCount.toNat - j = p + k - j + 2 by omega, trialGood_iff s (by omega)]
    exact hbad j hj
  have hmessage : validateMessage s = clearPending (acceptMessage p s) := by
    rw [validateMessage_of_good hpend hfirst, show s.rx.byteCount.toNat - k - 2 = p by omega]
  have hresponse : validateResponse (clearPending (acceptMessage p s)) = BitVec.ofNat 32 (256 * p + 1) := by
    rw [validateResponse, clearPending_validator, acceptMessage_validator]
    exact acceptResponse_eq (by omega)
  have hlen : p % 256 = p := Nat.mod_eq_of_lt (by omega)
  refine ⟨_, exec_rxValidate s, ?_⟩
  rw [hmessage, hresponse]
  simp [acceptMessage_validator, acceptMessage_stat, copyPayload_getElem, hlen]

/-- Settles O37: a trial of fewer than two bytes is no trial, and the others fail. -/
theorem validateDropsACorruptedMessage : Obligations.ValidateDropsACorruptedMessage := by
  intro s hpend hcrc
  have hnone : goodTrial s = none := by
    refine goodTrial_eq_none fun k hk => ?_
    rcases Nat.lt_or_ge (s.rx.byteCount.toNat - k) 2 with hlt | hge
    · exact trialGood_of_lt s hlt
    · rw [Bool.eq_false_iff, ne_eq, trialGood_iff s hge]
      exact hcrc _ hge (Nat.sub_le _ _) (by omega)
  rw [exec_rxValidate, validateMessage_of_bad hpend hnone]
  rfl

/-! ### The parity check (45 R902, R903) -/

/-- The byte of a codeword stands in its top bits, and no codeword is the EOP (45 R902). -/
theorem precode_ok {c : Config} (h : c.PrecodeOk) (b : Byte) :
    (c.precode b).extractLsb' 3 8 = b ∧ c.precode b ≠ eopCodeword := h b.toFin

/-- The byte of a codeword in DET_DATA (43 R717 (d)). -/
theorem codewordByte_setWidth (w : BitVec 11) : codewordByte (w.setWidth 16) = w.extractLsb' 3 8 := by
  apply BitVec.eq_of_getLsbD_eq
  intro i hi
  simp only [codewordByte, BitVec.getLsbD_extractLsb', BitVec.getLsbD_setWidth, hi, decide_true, Bool.true_and,
    show 3 + i < 16 by omega]

/-- The codeword in DET_DATA (43 R717 (d)). -/
theorem codewordBits_setWidth (w : BitVec 11) : codewordBits (w.setWidth 16) = w := by
  apply BitVec.eq_of_getLsbD_eq
  intro i hi
  simp only [codewordBits, BitVec.getLsbD_extractLsb', BitVec.getLsbD_setWidth, hi, decide_true, Bool.true_and,
    Nat.zero_add, show i < 16 by omega]

/-- A received codeword is flagged when it is not the table's codeword of its byte (43 R717 (d)). -/
theorem parityMismatch_iff (c : Config) (w : BitVec 11) :
    parityMismatch c (w.setWidth 16) = true ↔ c.precode (w.extractLsb' 3 8) ≠ w := by
  rw [parityMismatch, codewordByte_setWidth, codewordBits_setWidth, decide_eq_true_iff]

/-- A codeword is its byte followed by its three low bits. -/
theorem codeword_ext {v w : BitVec 11} (hbyte : v.extractLsb' 3 8 = w.extractLsb' 3 8)
    (hlow : v.extractLsb' 0 3 = w.extractLsb' 0 3) : v = w := by
  apply BitVec.eq_of_getLsbD_eq
  intro i hi
  rcases Nat.lt_or_ge i 3 with hlt | hge
  · have hbit := congrArg (·.getLsbD i) hlow
    simpa only [BitVec.getLsbD_extractLsb', hlt, decide_true, Bool.true_and, Nat.zero_add] using hbit
  · have hbit := congrArg (·.getLsbD (i - 3)) hbyte
    simpa only [BitVec.getLsbD_extractLsb', show i - 3 < 8 by omega, decide_true, Bool.true_and,
      Nat.add_sub_cancel' hge] using hbit

/-- Settles O39: a codeword and the table's codeword of its byte have the same byte, so only the low bits can differ. -/
theorem parityCheckIsSelfConsistent : Obligations.ParityCheckIsSelfConsistent := by
  intro c hc
  constructor
  · intro v
    obtain ⟨hbyte, -⟩ := precode_ok hc v
    rw [Bool.eq_false_iff, ne_eq, parityMismatch_iff, hbyte, not_not]
  · intro w
    obtain ⟨hbyte, -⟩ := precode_ok hc (w.extractLsb' 3 8)
    rw [parityMismatch_iff]
    exact not_congr ⟨fun h => by rw [h], fun h => codeword_ext hbyte h.symm⟩

end Sys2Proof.Machine
end

section
/-! CRCEngine (47): the commands over a byte sequence, the table as remainders, and the error that the CRC always
detects. -/

namespace Sys2Proof.Machine

/-! ### CRC_INIT and CRC_BYTE over a byte sequence (47 R1105) -/

/-- Settles O49, by induction on the bytes from the last: the last CRC_BYTE steps the CRC of the bytes before it. -/
theorem crcCommandsComputeTheCrc : Obligations.CrcCommandsComputeTheCrc := by
  intro s bytes
  induction bytes using List.reverseRecOn with
  | nil => exact ⟨_, execAll_cons [] (exec_crcInit s), rfl, by simp, rfl⟩
  | append_singleton bytes b ih =>
    obtain ⟨t, ht, hreg, hlen, hframe⟩ := ih
    have htab : t.crc.crcTab = s.crc.crcTab := by rw [hframe]
    refine ⟨setCrcReg (crcStep t.crc.crcTab t.crc.crcReg b) t, ?_, ?_, ?_, ?_⟩
    · rw [List.map_append, List.map_singleton, ← List.cons_append, execAll_concat _ _ ht]
      exact exec_crcByte t b
    · rw [setCrcReg_crc, crcOf_concat, ← hreg, htab]
    · rw [setCrcReg_responses, List.length_append, hlen, List.length_append, List.length_singleton,
        List.length_singleton]
      omega
    · rw [hframe]
      rfl

/-! ### The table entries as remainders (47 R1101) -/

/-- The generator polynomial with its leading term, x^16 + x^12 + x^5 + 1, in 24 bits. -/
abbrev crcGenerator : BitVec 24 := 0x011021#24

/-- The multiple of the generator by the polynomial whose coefficient at x^k is b k, for k < n. -/
def generatorMultiple (b : Nat → Bool) (n : Nat) : BitVec 24 :=
  (List.range n).foldl (fun a k => if b k then a ^^^ (crcGenerator <<< k) else a) 0#24

theorem generatorMultiple_succ (b : Nat → Bool) (n : Nat) :
    generatorMultiple b (n + 1) = generatorMultiple b n ^^^ (if b n then crcGenerator <<< n else 0) := by
  unfold generatorMultiple
  rw [List.range_succ, List.foldl_append, List.foldl_cons, List.foldl_nil]
  split
  · rfl
  · exact BitVec.xor_zero.symm

theorem generatorMultiple_congr {b b' : Nat → Bool} {n : Nat} (h : ∀ k < n, b k = b' k) :
    generatorMultiple b n = generatorMultiple b' n := by
  induction n with
  | zero => rfl
  | succ n ih =>
    rw [generatorMultiple_succ, generatorMultiple_succ, ih fun k hk => h k (Nat.lt_succ_of_lt hk),
      h n (Nat.lt_succ_self n)]

/-- One shift of BuildTable: the register times x, less the generator when the top bit is shifted out. -/
theorem setWidth_shiftLeft_one (c : BitVec 16) :
    c.setWidth 24 <<< 1 = (if c.getLsbD 15 then crcGenerator else 0) ^^^ (crcShift c).setWidth 24 := by
  unfold crcShift
  apply BitVec.eq_of_getLsbD_eq
  intro i hi
  split <;> rename_i h <;> interval_cases i <;> simp_all [crcGenerator]

/-- n shifts of BuildTable: the register times x^n is a multiple of the generator plus the shifted register. -/
theorem exists_multiple_of_shifts (n : Nat) (c : BitVec 16) :
    ∃ b, c.setWidth 24 <<< n = generatorMultiple b n ^^^ (crcShift^[n] c).setWidth 24 := by
  induction n generalizing c with
  | zero => exact ⟨fun _ => false, by simp [generatorMultiple]⟩
  | succ n ih =>
    obtain ⟨b, hb⟩ := ih (crcShift c)
    refine ⟨fun k => if k = n then c.getLsbD 15 else b k, ?_⟩
    have hsame : generatorMultiple (fun k => if k = n then c.getLsbD 15 else b k) n = generatorMultiple b n :=
      generatorMultiple_congr fun k hk => if_neg hk.ne
    rw [generatorMultiple_succ, hsame, Function.iterate_succ_apply, Nat.add_comm, BitVec.shiftLeft_add,
      setWidth_shiftLeft_one, BitVec.shiftLeft_xor_distrib, hb]
    have hterm : (if c.getLsbD 15 then crcGenerator else 0) <<< n = if c.getLsbD 15 then crcGenerator <<< n else 0 := by
      split
      · rfl
      · exact BitVec.zero_shiftLeft ..
    rw [hterm, if_pos rfl, ← BitVec.xor_assoc, BitVec.xor_comm (generatorMultiple b n)]

/-- Settles O50: an entry is the result of eight shifts of i·x^8. -/
theorem crcTableHoldsTheRemainders : Obligations.CrcTableHoldsTheRemainders := by
  intro i
  obtain ⟨b, hb⟩ := exists_multiple_of_shifts 8 ((BitVec.ofFin (w := 8) i).setWidth 16 <<< 8)
  refine ⟨BitVec.ofFnLE fun k => b k, ?_⟩
  have hentry : buildTable[i] = crcShift^[8] ((BitVec.ofFin (w := 8) i).setWidth 16 <<< 8) :=
    buildTable_getElem (BitVec.ofFin i)
  have hshift : BitVec.ofNat 24 i.val <<< 16 =
      ((BitVec.ofFin (w := 8) i).setWidth 16 <<< 8).setWidth 24 <<< 8 := by
    apply BitVec.eq_of_toNat_eq
    have hi := i.isLt
    simp only [BitVec.toNat_shiftLeft, BitVec.toNat_ofNat, BitVec.toNat_setWidth, BitVec.toNat_ofFin, Nat.shiftLeft_eq]
    omega
  have hquotient : generatorMultiple b 8 =
      generatorMultiple (fun k => (BitVec.ofFnLE fun k : Fin 8 => b k).getLsbD k) 8 :=
    generatorMultiple_congr fun k hk => by simp [hk]
  rw [hentry, hshift, hb, hquotient]
  rfl

/-! ### An error in one byte -/

/-- BuildTable's shift as one sum: the polynomial enters when the top bit is shifted out (47 R1101). -/
theorem crcShift_eq (c : BitVec 16) : crcShift c = (c <<< 1) ^^^ (if c.getLsbD 15 then crcPoly else 0) := by
  unfold crcShift
  split
  · rfl
  · exact BitVec.xor_zero.symm

/-- BuildTable's shift is linear (47 R1101). -/
theorem crcShift_xor (x y : BitVec 16) : crcShift (x ^^^ y) = crcShift x ^^^ crcShift y := by
  have hpoly (a b : Bool) :
      (if a ^^ b then crcPoly else 0) = (if a then crcPoly else 0) ^^^ (if b then crcPoly else 0) := by
    cases a <;> cases b <;> decide
  simp only [crcShift_eq, BitVec.getLsbD_xor, BitVec.shiftLeft_xor_distrib, hpoly]
  ac_rfl

/-- The lowest coefficient of the polynomial is 1, so a shift keeps the bit it shifts out in bit 0. -/
theorem getLsbD_zero_crcShift (c : BitVec 16) : (crcShift c).getLsbD 0 = c.getLsbD 15 := by
  rw [crcShift_eq, BitVec.getLsbD_xor, BitVec.getLsbD_shiftLeft]
  cases c.getLsbD 15 <;> simp [crcPoly]

theorem crcShift_injective : Function.Injective crcShift := by
  intro x y h
  have htop : x.getLsbD 15 = y.getLsbD 15 := by rw [← getLsbD_zero_crcShift, h, getLsbD_zero_crcShift]
  rw [crcShift_eq, crcShift_eq, htop, BitVec.xor_left_inj] at h
  apply BitVec.eq_of_getLsbD_eq
  intro i hi
  rcases (Nat.le_of_lt_succ hi).lt_or_eq with hlt | rfl
  · have hbit := congrArg (·.getLsbD (i + 1)) h
    simpa [show i + 1 < 16 by omega, BitVec.getLsbD_eq_getElem hi] using hbit
  · exact htop

theorem iterate_crcShift_xor (n : Nat) (x y : BitVec 16) :
    crcShift^[n] (x ^^^ y) = crcShift^[n] x ^^^ crcShift^[n] y := by
  induction n generalizing x y with
  | zero => rfl
  | succ n ih => simp only [Function.iterate_succ_apply, crcShift_xor, ih]

/-- Shifts that shift out zeros only (47 R1101). -/
theorem iterate_crcShift_of_lt {n : Nat} (hn : n ≤ 16) {x : BitVec 16} (h : x.toNat < 2 ^ (16 - n)) :
    crcShift^[n] x = x <<< n := by
  induction n generalizing x with
  | zero => exact (BitVec.shiftLeft_zero x).symm
  | succ n ih =>
    have hpow : 2 ^ (16 - n) = 2 * 2 ^ (16 - (n + 1)) := by
      rw [show 16 - n = (16 - (n + 1)) + 1 by omega, pow_succ, Nat.mul_comm]
    have hle : 2 ^ (16 - (n + 1)) ≤ 2 ^ 15 := Nat.pow_le_pow_right (by norm_num) (by omega)
    have htop : x.getLsbD 15 = false := Nat.testBit_lt_two_pow (h.trans_le hle)
    have hshift : crcShift x = x <<< 1 := by
      rw [crcShift, htop]
      rfl
    have hdouble : (x <<< 1).toNat = 2 * x.toNat := by
      rw [BitVec.toNat_shiftLeft, Nat.shiftLeft_eq]
      omega
    rw [Function.iterate_succ_apply, hshift, ih (by omega) (by omega), ← BitVec.shiftLeft_add, Nat.add_comm]

/-- With BuildTable's table a byte step is eight shifts and the byte (47 R1101, R1102). -/
theorem crcStep_buildTable (reg : BitVec 16) (b : Byte) :
    crcStep buildTable reg b = crcShift^[8] reg ^^^ b.setWidth 16 := by
  have hsplit : reg = ((reg.extractLsb' 8 8).setWidth 16 <<< 8) ^^^ (reg.extractLsb' 0 8).setWidth 16 := by
    apply BitVec.eq_of_getLsbD_eq
    intro i hi
    interval_cases i <;> simp
  have hlow : crcShift^[8] ((reg.extractLsb' 0 8).setWidth 16) = reg <<< 8 := by
    rw [iterate_crcShift_of_lt (by norm_num) (by simp; omega)]
    apply BitVec.eq_of_getLsbD_eq
    intro i hi
    interval_cases i <;> simp
  rw [crcStep, buildTable_getElem, crcEntry]
  conv_rhs => rw [hsplit, iterate_crcShift_xor, hlow]
  rw [BitVec.xor_comm (reg <<< 8)]

/-- A byte step loses nothing of the register. -/
theorem crcStep_injective (b : Byte) : Function.Injective fun reg => crcStep buildTable reg b := by
  intro x y h
  simp only [crcStep_buildTable] at h
  exact crcShift_injective.iterate 8 ((BitVec.xor_left_inj _).mp h)

theorem foldl_crcStep_injective (bs : List Byte) : Function.Injective fun reg => bs.foldl (crcStep buildTable) reg := by
  induction bs with
  | nil => exact Function.injective_id
  | cons b bs ih => exact ih.comp (crcStep_injective b)

/-- A byte step loses nothing of the byte. -/
theorem crcStep_ne (reg : BitVec 16) {a b : Byte} (h : a ≠ b) :
    crcStep buildTable reg a ≠ crcStep buildTable reg b := by
  rw [crcStep_buildTable, crcStep_buildTable]
  intro heq
  have hwide := congrArg BitVec.toNat ((BitVec.xor_right_inj _).mp heq)
  rw [BitVec.toNat_setWidth_of_le (by norm_num), BitVec.toNat_setWidth_of_le (by norm_num)] at hwide
  exact h (BitVec.eq_of_toNat_eq hwide)

/-- Settles O51: the step of the differing byte separates the registers, and no later step joins them. -/
theorem crcDetectsASingleByteError : Obligations.CrcDetectsASingleByteError := by
  intro pre post a b hne heq
  rw [crcOf, crcOf, List.foldl_append, List.foldl_append, List.foldl_cons, List.foldl_cons] at heq
  exact crcStep_ne _ hne (foldl_crcStep_injective post heq)

end Sys2Proof.Machine
end

section
/-! Runs of sampled bits (43): bits that complete no pattern, the eleven bits of a codeword, and the codewords of a
message, with the boundaries of the two timeouts (43 R722). -/

namespace Sys2Proof.Machine

/-! ### The shift register -/

/-- The bits of a word, most significant first, shifted into an empty register give the word (20 R205). -/
theorem foldl_shiftIn_bitsOf {n : Nat} (hn : n ≤ 16) (w : BitVec n) : (bitsOf w).foldl shiftIn 0 = w.setWidth 16 := by
  have hfirst (k : Nat) (hk : k ≤ n) :
      (((List.range k).map w.getMsbD).foldl shiftIn 0).toNat = w.toNat / 2 ^ (n - k) := by
    induction k with
    | zero => simp [Nat.div_eq_of_lt w.isLt]
    | succ k ih =>
      have hbit : (w.getMsbD k).toNat = w.toNat / 2 ^ (n - (k + 1)) % 2 := by
        rw [BitVec.getMsbD, decide_eq_true (by omega : k < n), Bool.true_and, BitVec.getLsbD, Nat.toNat_testBit]
        congr 3
        omega
      have hhalf : w.toNat / 2 ^ (n - k) = w.toNat / 2 ^ (n - (k + 1)) / 2 := by
        rw [Nat.div_div_eq_div_mul, ← pow_succ]
        congr 2
        omega
      have hlt : w.toNat / 2 ^ (n - (k + 1)) < 2 ^ 16 :=
        (Nat.div_le_self _ _).trans_lt (w.isLt.trans_le (Nat.pow_le_pow_right (by norm_num) hn))
      rw [List.range_succ, List.map_append, List.map_singleton, List.foldl_append, List.foldl_cons, List.foldl_nil,
        toNat_shiftIn, ih (by omega), hbit, hhalf]
      omega
  apply BitVec.eq_of_toNat_eq
  rw [bitsOf, hfirst n le_rfl, Nat.sub_self, pow_zero, Nat.div_one, BitVec.toNat_setWidth_of_le hn]

/-- No bit of the run leaves one of the patterns in the shift register. -/
def avoids (patterns : List (BitVec 16)) : BitVec 16 → List Bool → Bool
  | _, [] => true
  | d, b :: bits => decide (shiftIn d b ∉ patterns) && avoids patterns (shiftIn d b) bits

theorem avoids_cons {patterns : List (BitVec 16)} {d : BitVec 16} {b : Bool} {bits : List Bool} :
    avoids patterns d (b :: bits) = true ↔
      shiftIn d b ∉ patterns ∧ avoids patterns (shiftIn d b) bits = true := by
  rw [avoids, Bool.and_eq_true, decide_eq_true_iff]

/-- A run avoids the patterns when each of its beginnings does. -/
theorem avoids_of_take {patterns : List (BitVec 16)} {d : BitVec 16} {bits : List Bool}
    (h : ∀ k ≤ bits.length, 1 ≤ k → (bits.take k).foldl shiftIn d ∉ patterns) : avoids patterns d bits = true := by
  induction bits generalizing d with
  | nil => rfl
  | cons b bits ih =>
    rw [avoids_cons]
    exact ⟨h 1 (by simp) le_rfl, ih fun k hk _ => h (k + 1) (Nat.succ_le_succ hk) (Nat.le_add_left 1 k)⟩

/-! ### Bits that complete no pattern -/

/-- The bits of a run, one after the other. -/
theorem feedBits_cons (seed : BitVec 11) (b : Bool) (bits : List Bool) (s : State) :
    feedBits seed (b :: bits) s = feedBits seed bits (sampleBit b seed s) := rfl

/-- The state after bits in FIND_BITSYNC that do not complete the pattern (43 R714). -/
def bitsyncShifted (bits : List Bool) (s : State) : State :=
  { s with rx := { s.rx with detData := bits.foldl shiftIn s.rx.detData } }

/-- Bits in FIND_BITSYNC that do not complete the pattern are shifted in (43 R714). -/
theorem feedBits_bitsync (seed : BitVec 11) (bits : List Bool) {s : State} (hm : s.rx.mode = .findBitsync)
    (h : avoids [bitsyncPattern] s.rx.detData bits = true) : feedBits seed bits s = bitsyncShifted bits s := by
  induction bits generalizing s with
  | nil => rfl
  | cons b bits ih =>
    obtain ⟨hmiss, hrest⟩ := avoids_cons.mp h
    rw [feedBits_cons, sampleBit_of_bitsync_shift hm (fun heq => hmiss (List.mem_singleton.mpr heq))]
    exact ih (s := { s with rx := { s.rx with detData := shiftIn s.rx.detData b } }) hm hrest

/-- The state after bits in FIND_WORDSYNC that complete no pattern (43 R715). -/
def wordsyncShifted (bits : List Bool) (s : State) : State :=
  { s with rx := { s.rx with
      detData := bits.foldl shiftIn s.rx.detData
      modeCounter := s.rx.modeCounter + BitVec.ofNat 16 bits.length } }

/-- The count of one bit and then of the others. -/
theorem wordsyncShifted_cons (b : Bool) (bits : List Bool) (s : State) :
    wordsyncShifted bits { s with rx := { s.rx with
      detData := shiftIn s.rx.detData b, modeCounter := s.rx.modeCounter + 1 } } = wordsyncShifted (b :: bits) s := by
  have hcount : s.rx.modeCounter + 1 + BitVec.ofNat 16 bits.length =
      s.rx.modeCounter + BitVec.ofNat 16 (b :: bits).length := by
    rw [List.length_cons, BitVec.ofNat_add, BitVec.add_assoc, BitVec.add_comm 1]
    rfl
  simp only [wordsyncShifted, hcount]
  rfl

/-- A count within the timeout fits MODE_COUNTER (00 R8). -/
theorem wordsyncShifted_modeCounter {bits : List Bool} {s : State}
    (h : s.rx.modeCounter.toNat + bits.length ≤ 65534) :
    (wordsyncShifted bits s).rx.modeCounter.toNat = s.rx.modeCounter.toNat + bits.length := by
  show (s.rx.modeCounter + BitVec.ofNat 16 bits.length).toNat = _
  rw [BitVec.toNat_add, toNat_ofNat_of_lt (by omega), Nat.mod_eq_of_lt (by omega)]

/-- Neither of the two patterns is in the shift register. -/
theorem not_wordsync_iff {d : BitVec 16} :
    ¬ (d = wordsyncPattern ∨ d = wordsyncInverted) ↔ d ∉ [wordsyncPattern, wordsyncInverted] := by
  simp only [List.mem_cons, List.not_mem_nil, or_false]

/-- Bits in FIND_WORDSYNC that neither complete the pattern nor reach the timeout are shifted in and counted
(43 R715). -/
theorem feedBits_wordsync (seed : BitVec 11) (bits : List Bool) {s : State} (hm : s.rx.mode = .findWordsync)
    (h : avoids [wordsyncPattern, wordsyncInverted] s.rx.detData bits = true)
    (hmax : s.cfg.findWordsyncTimeout ≤ 65534)
    (htime : s.rx.modeCounter.toNat + bits.length ≤ s.cfg.findWordsyncTimeout) :
    feedBits seed bits s = wordsyncShifted bits s := by
  induction bits generalizing s with
  | nil => simp [feedBits, wordsyncShifted]
  | cons b bits ih =>
    obtain ⟨hmiss, hrest⟩ := avoids_cons.mp h
    rw [List.length_cons] at htime
    have hcount : (s.rx.modeCounter + 1).toNat = s.rx.modeCounter.toNat + 1 := by bv_omega
    rw [feedBits_cons, sampleBit_of_wordsync_shift hm (not_wordsync_iff.mpr hmiss) (by omega), ← wordsyncShifted_cons]
    refine ih ?_ hrest hmax ?_
    · exact hm
    · simp only [hcount]
      omega

/-- Settles O32: up to FIND_WORDSYNC_TIMEOUT bits are shifted in and counted, and the next one reaches the timeout. -/
theorem wordsyncTimeoutBoundary : Obligations.WordsyncTimeoutBoundary := by
  intro seed s bits hmax hm hzero hlen hmiss
  have hmiss' (k : Nat) (hk : k ≤ bits.length) (hpos : 1 ≤ k) :
      (bits.take k).foldl shiftIn s.rx.detData ∉ [wordsyncPattern, wordsyncInverted] :=
    not_wordsync_iff.mp (not_or.mpr (hmiss k hk hpos))
  have hrun (k : Nat) (hk : k < bits.length) : feedBits seed (bits.take k) s = wordsyncShifted (bits.take k) s ∧
      (wordsyncShifted (bits.take k) s).rx.modeCounter.toNat = k := by
    have hlength : (bits.take k).length = k := List.length_take_of_le hk.le
    have hstart : s.rx.modeCounter.toNat + (bits.take k).length = k := by rw [hzero, hlength]; exact Nat.zero_add k
    refine ⟨feedBits_wordsync seed _ hm (avoids_of_take fun j hj hpos => ?_) hmax (by omega), ?_⟩
    · rw [List.take_take, Nat.min_eq_left (by omega)]
      exact hmiss' j (by omega) hpos
    · rw [wordsyncShifted_modeCounter (by omega), hstart]
  refine ⟨fun k hk => ?_, ?_⟩
  · obtain ⟨hfeed, hcount⟩ := hrun k hk
    rw [hfeed]
    exact ⟨hm, hcount, rfl⟩
  · obtain rfl | ⟨ys, b, rfl⟩ := bits.eq_nil_or_concat'
    · cases hlen
    rw [List.length_append, List.length_singleton] at hlen
    obtain ⟨hfeed, hcount⟩ := hrun ys.length (by simp)
    rw [List.take_left] at hfeed hcount
    have hlast := hmiss' (ys ++ [b]).length le_rfl (by simp)
    rw [List.take_length, List.foldl_concat] at hlast
    have htime : s.cfg.findWordsyncTimeout < ((wordsyncShifted ys s).rx.modeCounter + 1).toNat := by
      rw [BitVec.toNat_add, hcount]
      show _ < (ys.length + 1) % 2 ^ 16
      omega
    rw [feedBits_append, hfeed, feedBits_cons,
      sampleBit_of_wordsync_timeout (s := wordsyncShifted ys s) hm (not_wordsync_iff.mpr hlast) htime]
    exact ⟨rfl, rfl⟩

/-! ### The bits of a codeword (43 R716) -/

/-- A bit that does not complete a codeword (43 R716). -/
theorem sampleBit_of_data_shift {s : State} (hm : InData s.rx.mode) (h : 1 < s.rx.bitCount.toNat) (b : Bool)
    (seed : BitVec 11) :
    sampleBit b seed s = { s with rx := { s.rx with
      detData := shiftIn s.rx.detData (b ^^ s.rx.polarity), bitCount := s.rx.bitCount - 1 } } := by
  have hmore : s.rx.bitCount - 1 ≠ 0 := by
    intro hzero
    have := congrArg BitVec.toNat hzero
    bv_omega
  rw [sampleBit_of_inData b seed hm, sampleData]
  exact if_neg hmore

/-- The last bit of a codeword (43 R716). -/
theorem sampleBit_of_data_last {s : State} (hm : InData s.rx.mode) (h : s.rx.bitCount = 1) (b : Bool)
    (seed : BitVec 11) :
    sampleBit b seed s = codewordDone seed (codewordComplete (shiftIn s.rx.detData (b ^^ s.rx.polarity)) s) := by
  rw [sampleBit_of_inData b seed hm, sampleData, h]
  rfl

/-- The state after upright bits that complete no codeword (43 R716). -/
def dataShifted (bits : List Bool) (s : State) : State :=
  { s with rx := { s.rx with
      detData := bits.foldl shiftIn s.rx.detData
      bitCount := s.rx.bitCount - BitVec.ofNat 4 bits.length } }

/-- One bit down and then the others. -/
theorem dataShifted_cons (b : Bool) (bits : List Bool) (s : State) :
    dataShifted bits { s with rx := { s.rx with
      detData := shiftIn s.rx.detData b, bitCount := s.rx.bitCount - 1 } } = dataShifted (b :: bits) s := by
  have hcount : s.rx.bitCount - 1 - BitVec.ofNat 4 bits.length =
      s.rx.bitCount - BitVec.ofNat 4 (b :: bits).length := by
    rw [List.length_cons, BitVec.ofNat_add, BitVec.add_comm, BitVec.sub_sub]
    rfl
  simp only [dataShifted, hcount]
  rfl

/-- A bit sent in the polarity of the receiver is received upright (43 R716). -/
theorem xor_polarity_cancel (p b : Bool) : ((p ^^ b) ^^ p) = b := by
  rw [Bool.xor_comm, ← Bool.xor_assoc, Bool.xor_self, Bool.false_xor]

/-- Bits sent in the polarity of the receiver that do not complete a codeword (43 R716). -/
theorem feedBits_data (seed : BitVec 11) (bits : List Bool) {s : State} (hm : InData s.rx.mode)
    (h : bits.length < s.rx.bitCount.toNat) :
    feedBits seed (bits.map (s.rx.polarity ^^ ·)) s = dataShifted bits s := by
  induction bits generalizing s with
  | nil => simp [feedBits, dataShifted]
  | cons b bits ih =>
    rw [List.length_cons] at h
    have hcount : (s.rx.bitCount - 1).toNat = s.rx.bitCount.toNat - 1 := by bv_omega
    rw [List.map_cons, feedBits_cons, sampleBit_of_data_shift hm (by omega), xor_polarity_cancel, ← dataShifted_cons]
    refine ih (s := { s with rx := { s.rx with
      detData := shiftIn s.rx.detData b, bitCount := s.rx.bitCount - 1 } }) hm ?_
    simp only [hcount]
    omega

/-- Settles O29: ten bits are shifted in, and the eleventh completes the codeword. -/
theorem elevenBitsMakeACodeword : Obligations.ElevenBitsMakeACodeword := by
  intro seed s w hm hbit hdata
  have hword := foldl_shiftIn_bitsOf (by norm_num) w
  have hlen := length_bitsOf w
  obtain hnil | ⟨ys, b, hys⟩ := (bitsOf w).eq_nil_or_concat'
  · rw [hnil] at hlen
    cases hlen
  rw [hys, List.length_append, List.length_singleton] at hlen
  have hlast : (dataShifted ys s).rx.bitCount = 1 := by
    rw [dataShifted, hbit, show ys.length = 10 by omega]
    rfl
  rw [hys, List.map_append, feedBits_append, feedBits_data seed ys hm (by rw [hbit]; exact Nat.lt_of_succ_le hlen.le),
    List.map_singleton, feedBits_cons, sampleBit_of_data_last (s := dataShifted ys s) hm hlast]
  have hshift : shiftIn (dataShifted ys s).rx.detData ((s.rx.polarity ^^ b) ^^ s.rx.polarity) = w.setWidth 16 := by
    rw [xor_polarity_cancel, ← hword, hys, List.foldl_concat, dataShifted, hdata]
  show codewordDone seed (codewordComplete
    (shiftIn (dataShifted ys s).rx.detData ((s.rx.polarity ^^ b) ^^ s.rx.polarity)) (dataShifted ys s)) = _
  rw [hshift]
  rfl

/-! ### The codewords of a message -/

/-- The bits on the line for these codewords, complemented when the polarity is inverted (43 R716). -/
def lineBits (polarity : Bool) (ws : List (BitVec 11)) : List Bool :=
  ws.flatMap fun w => (bitsOf w).map (polarity ^^ ·)

/-- Since the word sync at s, exactly the codewords ws have been received and stored, none an EOP (43 R715, R717). -/
structure Collected (s t : State) (ws : List (BitVec 11)) : Prop where
  inData : InData t.rx.mode
  modeCounter : t.rx.modeCounter.toNat = ws.length
  byteCount : t.rx.byteCount.toNat = ws.length
  bitCount : t.rx.bitCount = 11
  detData : t.rx.detData = 0
  polarity : t.rx.polarity = s.rx.polarity
  cfg : t.cfg = s.cfg
  bytes : ∀ (i : Nat) (h : i < ws.length), t.rx.rxbuf[i]? = some (ws[i].extractLsb' 3 8)
  stat : ∀ (k : Nat) (h : k < 9), k ≠ 6 → t.stat[k] = s.stat[k]
  parity : (∀ w ∈ ws, s.cfg.precode (w.extractLsb' 3 8) = w) → t.stat[6] = s.stat[6]

/-- A codeword other than the EOP is no EOP in DET_DATA (43 R717 (c)). -/
theorem setWidth_ne_eopPattern {w : BitVec 11} (h : w ≠ eopCodeword) : w.setWidth 16 ≠ eopPattern := by
  intro heq
  apply h
  rw [← codewordBits_setWidth w, heq]
  rfl

/-- The eleven bits of a codeword that follows the collected ones (43 R716). -/
theorem Collected.feedBits_codeword {s t : State} {ws : List (BitVec 11)} (h : Collected s t ws) (seed : BitVec 11)
    (w : BitVec 11) :
    feedBits seed (lineBits s.rx.polarity [w]) t = codewordDone seed (codewordComplete (w.setWidth 16) t) := by
  rw [lineBits, List.flatMap_singleton, ← h.polarity]
  exact elevenBitsMakeACodeword seed t w h.inData h.bitCount h.detData

/-- One more codeword is stored while there is room and time for it (43 R717 (d)). -/
theorem Collected.concat {s t : State} {ws : List (BitVec 11)} (h : Collected s t ws) (seed : BitVec 11)
    {w : BitVec 11} (heop : w ≠ eopCodeword) (hroom : ws.length < 36) (htime : ws.length + 1 ≤ s.cfg.findEopTimeout) :
    Collected s (feedBits seed (lineBits s.rx.polarity [w]) t) (ws ++ [w]) := by
  have hcounter : (t.rx.modeCounter + 1).toNat = ws.length + 1 := by
    have := h.modeCounter
    bv_omega
  have hcount : (t.rx.byteCount + 1).toNat = ws.length + 1 := by
    have := h.byteCount
    bv_omega
  have hbyte := h.byteCount
  rw [← h.cfg] at htime
  have hlen : (ws ++ [w]).length = ws.length + 1 := by simp
  rw [h.feedBits_codeword, codewordDone_stored (s := codewordComplete (w.setWidth 16) t) seed
    (hcounter.trans_le htime) (hbyte.trans_lt hroom) (setWidth_ne_eopPattern heop)]
  refine ⟨?inData, hcounter.trans hlen.symm, hcount.trans hlen.symm, rfl, rfl, h.polarity, h.cfg, fun i hi => ?bytes,
    fun k hk hne => ?stat, fun hparity => ?parity⟩
  case inData =>
    show InData (if t.rx.mode = .findData ∧ t.rx.byteCount = 33 then .findEop else t.rx.mode)
    split
    · exact .inr rfl
    · exact h.inData
  case bytes =>
    show (t.rx.rxbuf.set t.rx.byteCount.toNat (codewordByte (w.setWidth 16)) (hbyte.trans_lt hroom))[i]? = _
    rw [codewordByte_setWidth, Vector.getElem?_set, hbyte]
    rcases (Nat.le_of_lt_succ (hlen ▸ hi)).lt_or_eq with hlt | rfl
    · rw [if_neg hlt.ne', h.bytes i hlt, List.getElem_append_left hlt]
    · rw [if_pos rfl, List.getElem_concat_length rfl]
  case stat =>
    rw [← h.stat k hk hne]
    show (if _ then t.stat.set 6 (t.stat[6] + 1) else t.stat)[k] = _
    split
    · exact Vector.getElem_set_ne _ _ hne.symm
    · rfl
  case parity =>
    simp only [List.forall_mem_append, List.forall_mem_singleton] at hparity
    obtain ⟨hinit, hlast⟩ := hparity
    rw [← h.parity hinit]
    show (if t.rx.mode = .findData ∧ t.cfg.precode (codewordByte (w.setWidth 16)) ≠ codewordBits (w.setWidth 16) then
      t.stat.set 6 (t.stat[6] + 1) else t.stat)[6] = _
    rw [codewordByte_setWidth, codewordBits_setWidth, h.cfg, hlast, if_neg fun hne => hne.2 rfl]

theorem lineBits_append (polarity : Bool) (ws ws' : List (BitVec 11)) :
    lineBits polarity (ws ++ ws') = lineBits polarity ws ++ lineBits polarity ws' := List.flatMap_append

/-- Codewords other than the EOP are stored one after the other while there is room and time (43 R716, R717). -/
theorem collected_of_feedBits {s : State} (h : Collected s s []) (seed : BitVec 11) (ws : List (BitVec 11))
    (heop : ∀ w ∈ ws, w ≠ eopCodeword) (hroom : ws.length ≤ 36) (htime : ws.length ≤ s.cfg.findEopTimeout) :
    Collected s (feedBits seed (lineBits s.rx.polarity ws) s) ws := by
  induction ws using List.reverseRecOn with
  | nil => exact h
  | append_singleton ws w ih =>
    simp only [List.forall_mem_append, List.forall_mem_singleton, List.length_append, List.length_singleton]
      at heop hroom htime
    obtain ⟨hinit, hlast⟩ := heop
    rw [lineBits_append, feedBits_append]
    exact (ih hinit (by omega) (by omega)).concat seed hlast (by omega) (by omega)

/-- The codeword after as many as there is time or room for ends the message (43 R717 (a), (b)). -/
theorem Collected.end_of_message {s t : State} {ws : List (BitVec 11)} (h : Collected s t ws) (seed : BitVec 11)
    (w : BitVec 11) (hlen : ws.length = min s.cfg.findEopTimeout 36) :
    (feedBits seed (lineBits s.rx.polarity [w]) t).rx.mode = .findBitsync ∧
    (s.cfg.findEopTimeout ≤ 36 →
      (feedBits seed (lineBits s.rx.polarity [w]) t).stat = t.stat.set 4 (t.stat[4] + 1)) ∧
    (37 ≤ s.cfg.findEopTimeout →
      (feedBits seed (lineBits s.rx.polarity [w]) t).stat = t.stat.set 5 (t.stat[5] + 1)) := by
  have hcounter : (t.rx.modeCounter + 1).toNat = ws.length + 1 := by
    have := h.modeCounter
    bv_omega
  rw [h.feedBits_codeword]
  rcases Nat.lt_or_ge 36 s.cfg.findEopTimeout with hlt | hle
  · have hfull : maxRxMsgLen ≤ t.rx.byteCount.toNat := by rw [h.byteCount, hlen, Nat.min_eq_right hlt.le]
    have htime : (t.rx.modeCounter + 1).toNat ≤ t.cfg.findEopTimeout := by rw [h.cfg]; omega
    rw [codewordDone_of_too_long (s := codewordComplete (w.setWidth 16) t) seed htime hfull]
    exact ⟨rfl, fun hle => absurd hlt (Nat.not_lt.mpr hle), fun _ => rfl⟩
  · have htime : t.cfg.findEopTimeout < (t.rx.modeCounter + 1).toNat := by rw [h.cfg]; omega
    rw [codewordDone_of_timeout (s := codewordComplete (w.setWidth 16) t) seed htime]
    exact ⟨rfl, fun _ => rfl, fun hge => absurd hle (Nat.not_le.mpr hge)⟩

/-- Settles O33: the codewords but the last are collected, and the last ends the message. -/
theorem eopTimeoutBoundary : Obligations.EopTimeoutBoundary := by
  intro seed s ws last hm hcounter hcount hbit hdata hlast hlen heop
  have hstart : Collected s s [] :=
    ⟨.inl hm, by rw [hcounter]; rfl, by rw [hcount]; rfl, hbit, hdata, rfl, rfl, 
      fun i hi => absurd hi (Nat.not_lt_zero i), fun _ _ _ => rfl, fun _ => rfl⟩
  have hrun (k : Nat) (hk : k < last) :
      Collected s (feedBits seed (lineBits s.rx.polarity (ws.take k)) s) (ws.take k) :=
    collected_of_feedBits hstart seed _ (fun w hw => heop w (List.mem_of_mem_take hw))
      (by rw [List.length_take]; omega) (by rw [List.length_take]; omega)
  refine ⟨fun k hk => ?_, ?_⟩
  · have hcollected := hrun k hk
    exact ⟨hcollected.inData, hcollected.byteCount.trans (List.length_take_of_le (by omega))⟩
  · rintro t rfl
    obtain rfl | ⟨ys, w, rfl⟩ := ws.eq_nil_or_concat'
    · cases hlen.trans hlast
    rw [List.length_append, List.length_singleton] at hlen
    have hcollected := hrun ys.length (by omega)
    rw [List.take_left] at hcollected
    obtain ⟨hmode, htimeout, hlong⟩ := hcollected.end_of_message seed w (by omega)
    have hfour := hcollected.stat 4 (by norm_num) (by norm_num)
    have hfive := hcollected.stat 5 (by norm_num) (by norm_num)
    have hsplit : (ys ++ [w]).flatMap (fun w => (bitsOf w).map (s.rx.polarity ^^ ·)) =
        lineBits s.rx.polarity ys ++ lineBits s.rx.polarity [w] := lineBits_append _ ys [w]
    rw [hsplit, feedBits_append]
    refine ⟨hmode, fun hle => ?_, fun hge => ?_⟩
    · rw [htimeout hle]
      exact ⟨by rw [Vector.getElem_set_self, hfour], by rw [Vector.getElem_set_ne _ _ (by norm_num), hfive]⟩
    · rw [hlong hge]
      exact ⟨by rw [Vector.getElem_set_ne _ _ (by norm_num), hfour], by rw [Vector.getElem_set_self, hfive]⟩

end Sys2Proof.Machine
end

section
/-! The framing round trip (44 R804): the header brings the receiver into FIND_DATA in the polarity of the line, the
codewords are collected, the trailer's first codeword is the EOP, and the first trial of RX_VALIDATE is good. -/

namespace Sys2Proof.Machine

/-! ### What a run of bits leaves alone -/

theorem feedBits_frame (seed : BitVec 11) (bits : List Bool) (s : State) : RxFrame s (feedBits seed bits s) := by
  induction bits generalizing s with
  | nil => exact ⟨rfl, rfl, rfl, rfl, rfl, rfl, rfl, rfl⟩
  | cons b bits ih => exact (sampleBit_frame b seed s).trans (ih _)

/-- No sampled bit counts one of the last two events (43 R724). -/
theorem feedBits_stat_validator (seed : BitVec 11) (bits : List Bool) (s : State) :
    (feedBits seed bits s).stat[7] = s.stat[7] ∧ (feedBits seed bits s).stat[8] = s.stat[8] := by
  induction bits generalizing s with
  | nil => exact ⟨rfl, rfl⟩
  | cons b bits ih =>
    obtain ⟨hseven, height⟩ := ih (sampleBit b seed s)
    rw [feedBits_cons, hseven, height]
    rcases (sampleBit_effect b seed s).stat with hsame | ⟨n, hn, hcount⟩
    · rw [hsame]
      exact ⟨rfl, rfl⟩
    · rw [hcount]
      exact ⟨Vector.getElem_set_ne _ _ (by omega), Vector.getElem_set_ne _ _ (by omega)⟩

/-- Counting an event leaves the other counters alone (00 R12). -/
theorem countEvent_stat_of_ne {n : StatName} {s : State} {k : Nat} (hk : k < 9) (hne : (statIndex n).val ≠ k) :
    (countEvent n s).stat[k] = s.stat[k] := Vector.getElem_set_ne (statIndex n).isLt hk hne

/-- In the hold-off no bit changes the state (43 R718). -/
theorem feedBits_of_holdOff (seed : BitVec 11) (bits : List Bool) {s : State} (h : s.rx.mode = .eopHoldOff) :
    feedBits seed bits s = s := by
  induction bits with
  | nil => rfl
  | cons b bits ih => rw [feedBits_cons, sampleBit_of_holdOff b seed h, ih]

/-! ### The header (46 R1003) -/

/-- The bits of the header on the line. -/
def headerBits (inverted : Bool) : List Bool :=
  ([0xAAAA#16, 0xAAAA#16, 0x567B#16].flatMap bitsOf).map (inverted ^^ ·)

/-- How many bits of the header stand before the one that completes the bit-sync pattern: the inverted pattern is
completed one bit later. -/
def bitsBeforeBitsync (inverted : Bool) : Nat := if inverted then 16 else 15

/-- The bit-sync pattern is completed first by this bit of the header, and then the word-sync pattern by the last one,
in the polarity of the line. -/
theorem headerBits_patterns (inverted : Bool) :
    ∃ pre b mid b', headerBits inverted = (pre ++ [b]) ++ (mid ++ [b']) ∧ mid.length ≤ 31 ∧
      avoids [bitsyncPattern] 0 pre = true ∧ shiftIn (pre.foldl shiftIn 0) b = bitsyncPattern ∧
      avoids [wordsyncPattern, wordsyncInverted] 0 mid = true ∧
      shiftIn (mid.foldl shiftIn 0) b' = if inverted then wordsyncInverted else wordsyncPattern := by
  refine ⟨(headerBits inverted).take (bitsBeforeBitsync inverted),
    (headerBits inverted).getD (bitsBeforeBitsync inverted) false,
    ((headerBits inverted).drop (bitsBeforeBitsync inverted + 1)).dropLast, (headerBits inverted).getLastD false, ?_⟩
  cases inverted <;> decide

/-- Bits of which the last completes the bit-sync pattern (43 R714). -/
theorem feedBits_bitsync_match (seed : BitVec 11) {pre : List Bool} {b : Bool} {s : State}
    (hm : s.rx.mode = .findBitsync) (hpre : avoids [bitsyncPattern] s.rx.detData pre = true)
    (hmatch : shiftIn (pre.foldl shiftIn s.rx.detData) b = bitsyncPattern) :
    (feedBits seed (pre ++ [b]) s).rx.mode = .findWordsync ∧ (feedBits seed (pre ++ [b]) s).rx.detData = 0 ∧
    (feedBits seed (pre ++ [b]) s).rx.modeCounter = 0 ∧ (feedBits seed (pre ++ [b]) s).stat[6] = s.stat[6] := by
  rw [feedBits_append, feedBits_bitsync seed pre hm hpre, feedBits_cons,
    sampleBit_of_bitsync_match (s := bitsyncShifted pre s) hm hmatch]
  exact ⟨rfl, rfl, rfl, countEvent_stat_of_ne (by decide) (by decide)⟩

/-- Bits of which the last completes the word-sync pattern in one of its polarities (43 R715). -/
theorem feedBits_wordsync_match (seed : BitVec 11) {mid : List Bool} {b : Bool} {s : State}
    (hm : s.rx.mode = .findWordsync) (hmid : avoids [wordsyncPattern, wordsyncInverted] s.rx.detData mid = true)
    (hmax : s.cfg.findWordsyncTimeout ≤ 65534)
    (htime : s.rx.modeCounter.toNat + mid.length ≤ s.cfg.findWordsyncTimeout) {inverted : Bool}
    (hmatch : shiftIn (mid.foldl shiftIn s.rx.detData) b = if inverted then wordsyncInverted else wordsyncPattern) :
    Collected (feedBits seed (mid ++ [b]) s) (feedBits seed (mid ++ [b]) s) [] ∧
    (feedBits seed (mid ++ [b]) s).rx.polarity = inverted ∧
    (feedBits seed (mid ++ [b]) s).stat[6] = s.stat[6] := by
  have hone : shiftIn (mid.foldl shiftIn s.rx.detData) b = wordsyncPattern ∨
      shiftIn (mid.foldl shiftIn s.rx.detData) b = wordsyncInverted := by
    rw [hmatch]
    cases inverted
    · exact .inl rfl
    · exact .inr rfl
  have hpolarity : decide (shiftIn (mid.foldl shiftIn s.rx.detData) b = wordsyncInverted) = inverted := by
    rw [hmatch]
    cases inverted <;> rfl
  rw [feedBits_append, feedBits_wordsync seed mid hm hmid hmax htime, feedBits_cons,
    sampleBit_of_wordsync_match (s := wordsyncShifted mid s) hm hone]
  exact ⟨⟨.inl rfl, rfl, rfl, rfl, rfl, rfl, rfl, fun i hi => absurd hi (Nat.not_lt_zero i), fun _ _ _ => rfl,
    fun _ => rfl⟩, hpolarity, countEvent_stat_of_ne (by decide) (by decide)⟩

/-- The header from an empty shift register: the receiver is at the start of the first codeword, in the polarity of the
line (43 R714, R715). -/
theorem feedBits_header (seed : BitVec 11) {s : State} (hm : s.rx.mode = .findBitsync) (hdata : s.rx.detData = 0)
    (htime : 32 ≤ s.cfg.findWordsyncTimeout) (hmax : s.cfg.findWordsyncTimeout ≤ 65534) (inverted : Bool) :
    Collected (feedBits seed (headerBits inverted) s) (feedBits seed (headerBits inverted) s) [] ∧
    (feedBits seed (headerBits inverted) s).rx.polarity = inverted ∧
    (feedBits seed (headerBits inverted) s).stat[6] = s.stat[6] := by
  obtain ⟨pre, b, mid, b', hbits, hlen, hpre, hbitsync, hmid, hwordsync⟩ := headerBits_patterns inverted
  rw [← hdata] at hpre hbitsync
  obtain ⟨hmode, hzero, hcounter, hstat⟩ := feedBits_bitsync_match seed hm hpre hbitsync
  have hcfg := (feedBits_frame seed (pre ++ [b]) s).cfg
  rw [← hzero] at hmid hwordsync
  rw [hbits, feedBits_append, ← hstat]
  refine feedBits_wordsync_match seed hmode hmid (by rw [hcfg]; exact hmax) ?_ hwordsync
  rw [hcounter, hcfg]
  show 0 + mid.length ≤ _
  omega

/-! ### The codewords (45 R901, 46 R1000) -/

/-- The codewords of a byte list. -/
def codewordsOf (c : Config) (bs : List Byte) : List (BitVec 11) := bs.map c.precode

/-- The codeword stream on the line. -/
theorem map_codewordStream (c : Config) (bs : List Byte) (polarity : Bool) :
    (codewordStream c bs).map (polarity ^^ ·) = lineBits polarity (codewordsOf c bs) := by
  rw [codewordStream, lineBits, codewordsOf, List.map_flatMap, List.flatMap_map]

/-- The bytes of received table codewords stand in RXBUF (43 R717 (d), 45 R902). -/
theorem Collected.rxbuf_take {s t : State} {bs : List Byte} (hc : s.cfg.PrecodeOk)
    (h : Collected s t (codewordsOf s.cfg bs)) : t.rx.rxbuf.toList.take bs.length = bs := by
  apply List.ext_getElem?
  intro i
  rw [List.getElem?_take]
  have hlen : (codewordsOf s.cfg bs).length = bs.length := List.length_map ..
  split
  case isTrue hi =>
    have hbyte := h.bytes i (hlen.symm ▸ hi)
    obtain ⟨hprecode, -⟩ := precode_ok hc bs[i]
    rw [Vector.getElem?_toList, hbyte, List.getElem?_eq_getElem hi]
    simp only [codewordsOf, List.getElem_map, hprecode]
  case isFalse hi => rw [List.getElem?_eq_none (Nat.le_of_not_lt hi)]

/-- The trailer starts with the EOP codeword (46 R1004). -/
theorem trailer_bits : ∃ rest, [0xE67C#16, 0xCC00#16].flatMap bitsOf = bitsOf eopCodeword ++ rest :=
  ⟨([0xE67C#16, 0xCC00#16].flatMap bitsOf).drop 11, by decide⟩

/-- The trailer after the collected codewords: the EOP starts the hold-off, in which the rest is ignored (43 R717 (c),
R718). -/
theorem Collected.feedBits_trailer {s t : State} {ws : List (BitVec 11)} (h : Collected s t ws) (seed : BitVec 11)
    (hroom : ws.length < 36) (htime : ws.length + 1 ≤ s.cfg.findEopTimeout) :
    feedBits seed (([0xE67C#16, 0xCC00#16].flatMap bitsOf).map (s.rx.polarity ^^ ·)) t =
      eopFound seed (codewordComplete eopPattern t) := by
  obtain ⟨rest, hrest⟩ := trailer_bits
  have hcounter : (t.rx.modeCounter + 1).toNat = ws.length + 1 := by
    have := h.modeCounter
    bv_omega
  have heop : eopCodeword.setWidth 16 = eopPattern := rfl
  have hline : (bitsOf eopCodeword).map (s.rx.polarity ^^ ·) = lineBits s.rx.polarity [eopCodeword] :=
    (List.flatMap_singleton ..).symm
  rw [← h.cfg] at htime
  rw [hrest, List.map_append, feedBits_append, hline, h.feedBits_codeword, heop,
    codewordDone_of_eop seed (s := codewordComplete eopPattern t) (hcounter.trans_le htime)
      (h.byteCount.trans_lt hroom) rfl]
  exact feedBits_of_holdOff seed _ rfl

/-! ### The round trip (44 R804) -/

/-- The bits that TX_NEXT_BIT serves of a loaded frame are its stream (46 R1012). -/
theorem servedFrame_encodeFrame (s : State) {len : Nat} (h : len ≤ 32) :
    servedFrame (encodeFrame len s).tx = txStream s len := by
  rw [servedFrame, encodeFrame_txMsgLen_toNat s h, ← length_txStream s h]
  apply List.ext_getElem
  · simp
  · intro i hi hi'
    rw [List.getElem_map, List.getElem_range, servedBit_encodeFrame s h, List.getD_eq_getElem]

/-- The payload and the CRC bytes of the frame that TX_ENCODE loads. -/
def messageBytes (s : State) (n : Nat) : List Byte :=
  txPayload s.tx n ++ crcBytes (crcOf s.crc.crcTab (txPayload s.tx n))

theorem length_messageBytes (s : State) {n : Nat} (h : n ≤ 32) : (messageBytes s n).length = n + 2 := by
  rw [messageBytes, List.length_append, length_txPayload _ _ h]
  rfl

/-- The frame on the line: header, message codewords, trailer (46 R1000). -/
theorem map_txStream (s : State) (n : Nat) (inverted : Bool)
    (hheader : s.cfg.txHeader = #v[0xAAAA, 0xAAAA, 0x567B]) (htrailer : s.cfg.txTrailer = #v[0xE67C, 0xCC00]) :
    (txStream s n).map (inverted ^^ ·) =
      headerBits inverted ++ (lineBits inverted (codewordsOf s.cfg (messageBytes s n)) ++
        ([0xE67C#16, 0xCC00#16].flatMap bitsOf).map (inverted ^^ ·)) := by
  have hmessage : codewordStream s.cfg (messageBytes s n) =
      codewordStream s.cfg (txPayload s.tx n) ++
        codewordStream s.cfg (crcBytes (crcOf s.crc.crcTab (txPayload s.tx n))) :=
    List.flatMap_append
  rw [← map_codewordStream, hmessage, txStream, frameStream, hheader, htrailer, headerBits]
  simp only [List.map_append, List.append_assoc]
  rfl

/-- The receiver holds the message bs in RXBUF and waits for RX_VALIDATE (43 R717 (c)). -/
structure Received (bs : List Byte) (inverted : Bool) (seed : BitVec 11) (t : State) : Prop where
  mode : t.rx.mode = .eopHoldOff
  msgPending : t.rx.msgPending = true
  polarity : t.rx.polarity = inverted
  byteCount : t.rx.byteCount.toNat = bs.length
  holdOff : t.rx.holdOff = seed.setWidth 16
  rxbuf : t.rx.rxbuf.toList.take bs.length = bs

/-- A frame on the line is received from an empty shift register, with no parity error counted (44 R804). -/
theorem feedBits_frame_received (seed : BitVec 11) {s : State} (hc : s.cfg.PrecodeOk) (hm : s.rx.mode = .findBitsync)
    (hdata : s.rx.detData = 0) (hsync : 32 ≤ s.cfg.findWordsyncTimeout) (hmax : s.cfg.findWordsyncTimeout ≤ 65534)
    {bs : List Byte} (hlen : bs.length < 36) (htime : bs.length + 1 ≤ s.cfg.findEopTimeout) (inverted : Bool)
    {t : State} (ht : t = feedBits seed (headerBits inverted ++ (lineBits inverted (codewordsOf s.cfg bs) ++
      ([0xE67C#16, 0xCC00#16].flatMap bitsOf).map (inverted ^^ ·))) s) :
    Received bs inverted seed t ∧ t.stat[6] = s.stat[6] := by
  obtain ⟨hstart, hpolarity, hstat⟩ := feedBits_header seed hm hdata hsync hmax inverted
  have hcfg := (feedBits_frame seed (headerBits inverted) s).cfg
  rw [feedBits_append, feedBits_append] at ht
  generalize feedBits seed (headerBits inverted) s = u at hstart hpolarity hstat hcfg ht
  rw [← hcfg] at hc htime ht
  have hcount : (codewordsOf u.cfg bs).length = bs.length := List.length_map ..
  have htable (w : BitVec 11) (hw : w ∈ codewordsOf u.cfg bs) :
      w ≠ eopCodeword ∧ u.cfg.precode (w.extractLsb' 3 8) = w := by
    obtain ⟨b, -, rfl⟩ := List.mem_map.mp hw
    obtain ⟨hbyte, hne⟩ := precode_ok hc b
    exact ⟨hne, by rw [hbyte]⟩
  have hcollected := collected_of_feedBits hstart seed (codewordsOf u.cfg bs) (fun w hw => (htable w hw).1)
    (by omega) (by omega)
  have htrailer := hcollected.feedBits_trailer seed (by omega) (by omega)
  rw [hpolarity] at hcollected htrailer
  rw [htrailer] at ht
  generalize feedBits seed (lineBits inverted (codewordsOf u.cfg bs)) u = v at hcollected ht
  have hbuf := hcollected.rxbuf_take hc
  subst ht
  refine ⟨⟨rfl, rfl, hcollected.polarity.trans hpolarity, hcollected.byteCount.trans hcount, rfl, hbuf⟩, ?_⟩
  rw [eopFound, countEvent_stat_of_ne (by decide) (by decide), ← hstat]
  exact hcollected.parity fun w hw => (htable w hw).2

/-- A byte of the received message, as RXBUF holds it. -/
theorem Received.rxbuf_getElem? {bs : List Byte} {inverted : Bool} {seed : BitVec 11} {t : State}
    (h : Received bs inverted seed t) {i : Nat} (hi : i < bs.length) : t.rx.rxbuf[i]? = some bs[i] := by
  rw [← Vector.getElem?_toList, ← List.getElem?_take_of_lt hi, h.rxbuf, List.getElem?_eq_getElem hi]

/-- A received payload with its CRC bytes is accepted by the first trial (44 R801). -/
theorem Received.validated {payload : List Byte} {inverted : Bool} {seed : BitVec 11} {t : State}
    {tab : Vector (BitVec 16) 256} (h : Received (payload ++ crcBytes (crcOf tab payload)) inverted seed t)
    (htab : t.crc.crcTab = tab) (hlen : payload.length ≤ 32) :
    ∃ u : State, exec .rxValidate t = .next u ∧ u.validator.rxResult = 1 ∧
      u.validator.rxOutLen.toNat = payload.length ∧
      (∀ (i : Nat) (hi : i < payload.length), u.validator.rxout[i]'(by omega) = payload[i]) ∧
      u.stat = t.stat.set 7 (t.stat[7] + 1) := by
  subst htab
  have htotal : (payload ++ crcBytes (crcOf t.crc.crcTab payload)).length = payload.length + 2 := by
    rw [List.length_append]
    rfl
  have hcount := h.byteCount.trans htotal
  have hpayload : t.rx.rxbuf.toList.take payload.length = payload := by
    have htake := congrArg (List.take payload.length) h.rxbuf
    rwa [List.take_take, htotal, Nat.min_eq_left (by omega), List.take_left] at htake
  have hhigh := h.rxbuf_getElem? (i := payload.length) (by omega)
  have hlow := h.rxbuf_getElem? (i := payload.length + 1) (by omega)
  have hcrc : crcOf t.crc.crcTab (t.rx.rxbuf.toList.take payload.length) =
      t.rx.rxbuf[payload.length]?.getD 0 ++ t.rx.rxbuf[payload.length + 1]?.getD 0 := by
    rw [hpayload, hhigh, hlow]
    simp [crcBytes, append_bytes]
  obtain ⟨u, hu, hres, houtlen, -, hout, hstat, -⟩ := validateAcceptsTheFirstGoodTrial t 0 payload.length h.msgPending
    (by norm_num) (by omega) hcount hcrc (fun j hj => absurd hj (Nat.not_lt_zero j))
  refine ⟨u, hu, hres, houtlen, fun i hi => ?_, hstat⟩
  have hbyte := h.rxbuf_getElem? (i := i) (by omega)
  rw [Vector.getElem?_eq_getElem (by omega), List.getElem_append_left hi] at hbyte
  rw [hout i (by omega), if_pos hi]
  exact Option.some.inj hbyte

/-- Settles O40: the frame is received with its CRC, and validated as the payload. -/
theorem framingRoundTrip : Obligations.FramingRoundTrip := by
  rintro s s1 seed len n inverted ⟨hranges, hprecode, -⟩ hheader htrailer rfl hn hsync htime hm hdata hexec t ht
  have hmax : s.cfg.findWordsyncTimeout ≤ 65534 := by
    obtain ⟨-, -, -, -, -, -, -, hmax, -⟩ := hranges
    exact hmax
  rw [exec_txEncode_of_le s len hn] at hexec
  cases hexec
  have hbytes := length_messageBytes s hn
  have hpayload := length_txPayload s.tx len.toNat hn
  rw [respond_tx, servedFrame_encodeFrame s hn, map_txStream s len.toNat inverted hheader htrailer] at ht
  obtain ⟨hreceived, hparity⟩ := feedBits_frame_received seed (s := respond _ (encodeFrame len.toNat s)) hprecode hm
    hdata hsync hmax (bs := messageBytes s len.toNat) (by omega) (by rw [hbytes]; exact htime) inverted ht
  have htab : t.crc.crcTab = s.crc.crcTab := by
    rw [ht, (feedBits_frame ..).crc]
    rfl
  have hcounts : t.stat[7] = s.stat[7] ∧ t.stat[8] = s.stat[8] := by
    rw [ht]
    exact feedBits_stat_validator ..
  obtain ⟨u, hu, hres, houtlen, hout, hstat⟩ := Received.validated hreceived htab (by omega)
  refine ⟨hreceived.mode, hreceived.msgPending, hreceived.polarity, hreceived.byteCount.trans hbytes, hreceived.holdOff,
    hparity, u, hu, hres, houtlen.trans hpayload, fun i hi hlt => ?_, ?_, ?_⟩
  · rw [hout i (by omega)]
    simp [txPayload]
  · rw [hstat, Vector.getElem_set_self, hcounts.1]
  · rw [hstat, Vector.getElem_set_ne _ _ (by norm_num), hcounts.2]

end Sys2Proof.Machine
end
